-- ==== Sys2Proof/Word.lean ====
section
/-! DEFINITION. The widths the spec gives to values: bytes, 16-bit words, and the fields of an
instruction word (spec 00_scope.md R6, R8; 30_encoding.md R81). -/

namespace Sys2Proof

/-- An 8-bit value: a register V0-VF, a timer, a byte of memory, the immediate `kk` (R6, R81). -/
abbrev Byte := BitVec 8

/-- A 16-bit value: I, pc, a stack entry, an instruction word (R6). -/
abbrev Word := BitVec 16

/-- A 4-bit field: a register index `x` or `y`, the count `n`, the primary opcode (R81). -/
abbrev Nibble := BitVec 4

/-- The 12-bit address operand `nnn` (R81). -/
abbrev Addr12 := BitVec 12

/-- One row of 64 one-bit pixels; bit `x` is the pixel in column `x` (R37; log 11). -/
abbrev PixelRow := BitVec 64

end Sys2Proof
end

