-- ==== Sys2Proof/Config.lean ====
section
/-! DEFINITION. What is fixed for a machine: the sizes of spec 00_scope.md R6, the configuration
parameters of R7, and the one free value, the random byte of R13. -/

namespace Sys2Proof

/-- MEM_SIZE of R6: 4096 bytes, addresses 0x000-0xFFF. -/
abbrev memSize : Nat := 4096

/-- PROG_BASE of R6: where a program image is loaded and where execution begins. -/
abbrev progBase : Nat := 0x200

/-- PROG_MAX of R6: the largest program image, 4096 − 0x200 bytes. -/
abbrev progMax : Nat := 3584

/-- STACK_DEPTH of R6. -/
abbrev stackDepth : Nat := 16

/-- FONT_LEN of R6: 16 glyphs of 5 bytes. -/
abbrev fontLen : Nat := 80

/-- UNKNOWN_OPCODE_POLICY of R7: what a word that matches no row does (R304). -/
inductive UnknownOpcodePolicy where
  | fault
  | skip
deriving DecidableEq, Repr

/-- FLAG_ORDER of R7: which of the two writes of a flag-writing instruction comes first (R151). -/
inductive FlagOrder where
  | flagThenResult
  | resultThenFlag
deriving DecidableEq, Repr

/-- SPRITE_EDGE of R7: what becomes of a sprite bit beyond the screen's edge (R103). -/
inductive SpriteEdge where
  | clip
  | wrap
deriving DecidableEq, Repr

/-- The configuration parameters of R7. "A model takes each one as an argument": the state carries
them, no step changes them (log 1). -/
structure Config where
  /-- UNKNOWN_OPCODE_POLICY (D7). -/
  unknownOpcodePolicy : UnknownOpcodePolicy
  /-- FLAG_ORDER (D8). -/
  flagOrder : FlagOrder
  /-- ADD_I_SETS_VF (D9). -/
  addISetsVF : Bool
  /-- SPRITE_EDGE (D10). -/
  spriteEdge : SpriteEdge
  /-- HAS_SUBN (D11). -/
  hasSubn : Bool
  /-- FONT (D24): the table RESET copies to 0x000-0x04F. -/
  font : Vector Byte fontLen
deriving DecidableEq, Repr

/-- FREE VALUE (log 4; R13, R200, U9). The byte of the `k`-th draw when the host has lined up none.
It has no body: nothing is known of it, so every statement about a draw holds for every byte. -/
opaque Config.freeRandomByte : Nat → Byte

end Sys2Proof
end

