-- ==== Sys2Proof/Machine/Defaults.lean ====
section
/-! DEFINITION. The default configuration (spec 00_scope.md R7), the default font (10_state.md R45) and
what memory holds where nothing is listed (R44, R45). -/

namespace Sys2Proof.Machine

/-- The default of FONT: the glyphs 0-F of R45, five bytes each, top row first. The spec marks the
bytes as general knowledge (GK3; log 9). -/
def defaultFont : Vector Byte fontLen := Vector.mk
  #[0xF0, 0x90, 0x90, 0x90, 0xF0,  0x20, 0x60, 0x20, 0x20, 0x70,
    0xF0, 0x10, 0xF0, 0x80, 0xF0,  0xF0, 0x10, 0xF0, 0x10, 0xF0,
    0x90, 0x90, 0xF0, 0x10, 0x10,  0xF0, 0x80, 0xF0, 0x10, 0xF0,
    0xF0, 0x80, 0xF0, 0x90, 0xF0,  0xF0, 0x10, 0x20, 0x40, 0x40,
    0xF0, 0x90, 0xF0, 0x90, 0xF0,  0xF0, 0x90, 0xF0, 0x10, 0xF0,
    0xF0, 0x90, 0xF0, 0x90, 0x90,  0xE0, 0x90, 0xE0, 0x90, 0xE0,
    0xF0, 0x80, 0x80, 0x80, 0xF0,  0xE0, 0x90, 0x90, 0x90, 0xE0,
    0xF0, 0x80, 0xF0, 0x80, 0xF0,  0xF0, 0x80, 0xF0, 0x80, 0x80] rfl

/-- The defaults of R7. -/
def defaultConfig : Config where
  unknownOpcodePolicy := .fault
  flagOrder := .flagThenResult
  addISetsVF := false
  spriteEdge := .clip
  hasSubn := false
  font := defaultFont

/-- What an address that memory does not list reads as: the reset contents under the default FONT,
the font at 0x000-0x04F and zero elsewhere (R44, R45, R66). -/
def unlistedByte (a : Nat) : Byte := defaultFont.toList.getD a 0#8

end Sys2Proof.Machine
end

