-- ==== Sys2Proof/Machine/State.lean ====
section
/-! DEFINITION. The state of the CORE: every piece of state of spec 10_state.md R20-R45, the
configuration it runs under, and the random input (00_scope.md R7, R13). Plain data. -/

namespace Sys2Proof.Machine

/-- Memory as the bytes that differ from what an unlisted address reads as (`unlistedByte`), with
strictly rising addresses (`Memory.wf`). -/
abbrev Memory := List Host.Cell

/-- The 64 x 32 pixel grid of R37, a row of 64 bits for each of the 32 rows, top row first. -/
abbrev Framebuffer := Vector PixelRow 32

/-- The fault causes of R301, which FAULT_CODE records (R40). -/
inductive FaultCause where
  | unknownOpcode
  | stackOverflow
  | stackUnderflow
  | keyIndexRange
deriving DecidableEq, Repr

/-- Reasons the MODEL stops. A fault of the spec (R300-R305) is none of these: it is a next state
with FAULT_CODE written and the CORE halted (R302). -/
inductive Fault where
  /-- Raised by CALL and RET in a state whose sp is above 16, which names no stack entry. The spec says
  sp never leaves 0..16 (R33), so no run reaches such a state and the spec gives no effect there.
  Safe: the model stops and invents nothing (log 8). -/
  | noStackEntry
deriving DecidableEq, Repr

/-- Reasons an instruction has no meaning. -/
inductive Refusal where
  /-- Raised by an arm of `exec` whose instruction has no meaning yet. Safe: the model stops.
  No arm raises it: every instruction of the opcode map has its meaning. -/
  | notModelled (mnemonic : String)
deriving DecidableEq, Repr

/-- The state of the machine. -/
structure State where
  /-- V0-VF (R20, R21); VF is also the flag register (R23). -/
  v : Vector Byte 16
  /-- The index register I (R30). -/
  index : Word
  /-- The program counter (R26, R27). -/
  pc : Word
  /-- The call stack S (R32). -/
  stack : Vector Word stackDepth
  /-- The stack pointer, 0..16 in a 5-bit register (R33). -/
  sp : BitVec 5
  /-- The delay timer (R35). -/
  dt : Byte
  /-- The sound timer (R35). -/
  st : Byte
  /-- The framebuffer (R37). -/
  fb : Framebuffer
  /-- The opcode latch (R39). -/
  opcode : Word
  /-- FAULT_CODE (R40): the CORE is halted exactly when it is not 0. -/
  faultCode : Byte
  /-- FAULT_PC (R41). -/
  faultPC : Word
  /-- FAULT_OPCODE (R41). -/
  faultOpcode : Word
  /-- UNK_COUNT (R42). -/
  unkCount : Word
  /-- UNK_LAST_PC (R42). -/
  unkLastPC : Word
  /-- UNK_LAST_OPCODE (R42). -/
  unkLastOpcode : Word
  /-- The keypad K (R43): bit k is key k. -/
  keys : BitVec 16
  /-- Memory (R44). -/
  mem : Memory
  /-- The model's own: the configuration parameters of R7 (log 1). -/
  config : Config
  /-- The model's own: the bytes the host has lined up on the random input (R13; log 4). -/
  randomInput : List Byte
  /-- The model's own: how many draws have been made (log 4). -/
  randomCount : Nat
deriving DecidableEq, Repr

/-- The machine right after reset (R400) under the default configuration (R7). Memory lists nothing:
an unlisted address reads as its reset contents. -/
def State.reset : State where
  v := Vector.replicate 16 0
  index := 0
  pc := 0x200
  stack := Vector.replicate stackDepth 0
  sp := 0
  dt := 0
  st := 0
  fb := Vector.replicate 32 0
  opcode := 0
  faultCode := 0
  faultPC := 0
  faultOpcode := 0
  unkCount := 0
  unkLastPC := 0
  unkLastOpcode := 0
  keys := 0
  mem := []
  config := defaultConfig
  randomInput := []
  randomCount := 0

end Sys2Proof.Machine
end

