-- ==== Sys2Proof/Machine/Ops.lean ====
section
/-! DEFINITION. The state primitives of spec 00_scope.md R10 (memory, registers, stack, pixels, keys,
the random input), the program counter's moves (10_state.md R26, R27), and the taking of a fault
(60_exceptions.md R302, R304). -/

namespace Sys2Proof.Machine

/-! ### Memory (R44, R61, R63) -/

/-- The canonical form: addresses strictly rising and inside the address space, and no entry equal to
what its address reads as when unlisted. -/
abbrev Memory.wf (m : Memory) : Prop :=
  m.Pairwise (fun c d => c.1 < d.1) ∧ ∀ c ∈ m, c.1 < memSize ∧ c.2 ≠ unlistedByte c.1

/-- The byte listed at an address, or what an unlisted address reads as. -/
def Memory.lookup : Memory → Nat → Byte
  | [], a => unlistedByte a
  | c :: rest, a => if c.1 = a then c.2 else Memory.lookup rest a

/-- The list without an address. -/
def Memory.remove (m : Memory) (a : Nat) : Memory := m.filter (fun c => c.1 != a)

/-- The list with an entry put before the first larger address. -/
def Memory.insert : Memory → Nat → Byte → Memory
  | [], a, b => [(a, b)]
  | c :: rest, a, b => if a < c.1 then (a, b) :: c :: rest else c :: Memory.insert rest a b

/-- MemRead(a, 1): the byte at `a mod 4096` (R10, R61). -/
def Memory.readByte (m : Memory) (a : Nat) : Byte := Memory.lookup m (a % memSize)

/-- MemWrite(a, 1, b): the byte at `a mod 4096` becomes `b` (R10, R61). -/
def Memory.writeByte (m : Memory) (a : Nat) (b : Byte) : Memory :=
  let k := a % memSize
  if b = unlistedByte k then Memory.remove m k else Memory.insert (Memory.remove m k) k b

/-- Bytes stored at rising addresses, the first at `a` (R63). -/
def Memory.writeBytes (m : Memory) (a : Nat) : List Byte → Memory
  | [] => m
  | b :: rest => Memory.writeBytes (Memory.writeByte m a b) (a + 1) rest

/-- The byte of memory at `a mod 4096`. -/
def State.readMem (s : State) (a : Nat) : Byte := Memory.readByte s.mem a

/-- Store one byte. -/
def State.writeMem (s : State) (a : Nat) (b : Byte) : State :=
  { s with mem := Memory.writeByte s.mem a b }

/-- Store bytes at rising addresses. -/
def State.writeMemBytes (s : State) (a : Nat) (bs : List Byte) : State :=
  { s with mem := Memory.writeBytes s.mem a bs }

/-! ### Registers (R10, R20) -/

/-- V[x]. -/
def State.getV (s : State) (x : Nibble) : Byte := s.v.get x.toFin

/-- V[x] <- b. -/
def State.setV (s : State) (x : Nibble) (b : Byte) : State := { s with v := s.v.set x.toNat b x.isLt }

/-- V[0], V[1], … <- bs, in register order (R190). -/
def State.setVs (s : State) (k : Nat) : List Byte → State
  | [] => s
  | b :: rest => (s.setV (BitVec.ofNat 4 k) b).setVs (k + 1) rest

/-- I <- n mod 2^16 (R9, R30). -/
def State.setIndex (s : State) (n : Nat) : State := { s with index := BitVec.ofNat 16 n }

/-- DT <- b (R35). -/
def State.setDT (s : State) (b : Byte) : State := { s with dt := b }

/-- ST <- b (R35). -/
def State.setST (s : State) (b : Byte) : State := { s with st := b }

/-- opcode <- w (R39, R80). -/
def State.latch (s : State) (w : Word) : State := { s with opcode := w }

/-! ### The program counter (R26, R27) -/

/-- pc <- target, stored mod 4096 (R26). -/
def State.jump (s : State) (target : Nat) : State :=
  { s with pc := BitVec.ofNat 16 (target % memSize) }

/-- pc <- pc + 2. -/
def State.advance (s : State) : State := s.jump (s.pc.toNat + 2)

/-- pc <- pc + 4 if the condition holds, else pc + 2 (R128). -/
def State.skipIf (s : State) (c : Bool) : State := s.jump (s.pc.toNat + if c then 4 else 2)

/-! ### The call stack (R32, R33) -/

/-- S[sp] <- ret mod 4096, sp <- sp + 1; none where sp names no entry. -/
def State.pushStack (s : State) (ret : Nat) : Option State :=
  if h : s.sp.toNat < stackDepth then
    some { s with stack := s.stack.set s.sp.toNat (BitVec.ofNat 16 (ret % memSize)) h, sp := s.sp + 1 }
  else none

/-- The entry S[sp − 1] and the state with sp <- sp − 1; none where sp − 1 names no entry. The entry
keeps its value (R32). To be asked only where sp is not 0. -/
def State.popStack (s : State) : Option (Word × State) :=
  (s.stack[s.sp.toNat - 1]?).map fun t => (t, { s with sp := s.sp - 1 })

/-! ### The framebuffer (R37, R101, R103) -/

/-- FB[x][y]: column x, row y. -/
def Framebuffer.pixel (fb : Framebuffer) (x : Fin 64) (y : Fin 32) : Bool := (fb.get y).getLsbD x

/-- FB[x][y] <- FB[x][y] ^ 1. -/
def Framebuffer.flip (fb : Framebuffer) (x : Fin 64) (y : Fin 32) : Framebuffer :=
  fb.set y.val (fb.get y ^^^ BitVec.twoPow 64 x.val) y.isLt

/-- Every pixel 0 (R100). -/
def Framebuffer.blank : Framebuffer := Vector.replicate 32 0

/-- FB[x][y] of a state. -/
def State.pixel (s : State) (x : Fin 64) (y : Fin 32) : Bool := Framebuffer.pixel s.fb x y

/-- A new framebuffer. -/
def State.setFB (s : State) (fb : Framebuffer) : State := { s with fb := fb }

/-- `place` of R103: where a sprite bit at (px, py) is drawn, if anywhere. -/
def place (edge : SpriteEdge) (px py : Nat) : Option (Fin 64 × Fin 32) :=
  match edge with
  | .clip => if h : px < 64 ∧ py < 32 then some (⟨px, h.1⟩, ⟨py, h.2⟩) else none
  | .wrap => some (⟨px % 64, Nat.mod_lt _ (by decide)⟩, ⟨py % 32, Nat.mod_lt _ (by decide)⟩)

/-- The body of R101's inner loop: XOR one sprite bit in, and note whether it hit a lit pixel. -/
def drawBit (edge : SpriteEdge) (px py : Nat) (bit : Bool) (acc : Framebuffer × Bool) :
    Framebuffer × Bool :=
  if bit then
    match place edge px py with
    | some (x, y) => (Framebuffer.flip acc.1 x y, acc.2 || Framebuffer.pixel acc.1 x y)
    | none => acc
  else acc

/-- R101's inner loop: the 8 bits of one sprite row, bit 7 leftmost. -/
def drawRow (edge : SpriteEdge) (x0 py : Nat) (b : Byte) (acc : Framebuffer × Bool) :
    Framebuffer × Bool :=
  (List.range 8).foldl (fun a c => drawBit edge (x0 + c) py (b.getLsbD (7 - c)) a) acc

/-- R101's outer loop: the rows of a sprite, one byte each, from the top. -/
def drawRows (edge : SpriteEdge) (x0 y0 : Nat) : List Byte → Framebuffer × Bool → Framebuffer × Bool
  | [], acc => acc
  | b :: rest, acc => drawRows edge x0 (y0 + 1) rest (drawRow edge x0 y0 b acc)

/-! ### The keypad and the random input (R10, R13, R43) -/

/-- K[k]: whether key k is pressed. -/
def State.key (s : State) (k : Nat) : Bool := s.keys.getLsbD k

/-- min { k | K[k] = 1 }, if any key is pressed (R212). -/
def State.firstKey (s : State) : Option Nat := (List.range 16).find? s.key

/-- Rand(): the byte on the random input for this step (R10, R13). The byte the host lined up, or a
free value where it lined up none (log 4). -/
def State.randByte (s : State) : Byte :=
  match s.randomInput with
  | b :: _ => b
  | [] => Config.freeRandomByte s.randomCount

/-- The state after a draw: the byte is used up and the draw counted (log 4). -/
def State.takeRand (s : State) : State :=
  { s with randomInput := s.randomInput.tail, randomCount := s.randomCount + 1 }

/-! ### Faults (R300-R307)

A fault has no return: nothing but RESET leaves the halted state (R307), which is the RESET event of
Machine/Events.lean. -/

/-- The code FAULT_CODE records for a cause (R40, R301). -/
def FaultCause.code : FaultCause → Byte
  | .unknownOpcode => 0x01
  | .stackOverflow => 0x02
  | .stackUnderflow => 0x03
  | .keyIndexRange => 0x04

/-- The CORE is halted exactly when FAULT_CODE ≠ 0 (R40). -/
def State.halted (s : State) : Bool := s.faultCode != 0#8

/-- raise Fault(cause, pc, opcode) of R302: the three fault registers are written, everything else
keeps its value, and the opcode latch keeps the faulting word. -/
def State.raise (s : State) (c : FaultCause) : State :=
  { s with faultCode := c.code, faultPC := s.pc, faultOpcode := s.opcode }

/-- The trace of a skipped unknown opcode (R304): UNK_COUNT saturates (R42). -/
def State.traceUnknown (s : State) : State :=
  { s with
    unkCount := BitVec.ofNat 16 (min (s.unkCount.toNat + 1) 0xFFFF)
    unkLastPC := s.pc
    unkLastOpcode := s.opcode }

/-- What a word of R85 executes as (R304). -/
def State.unknownOpcode (s : State) : State :=
  match s.config.unknownOpcodePolicy with
  | .fault => s.raise .unknownOpcode
  | .skip => s.traceUnknown.advance

end Sys2Proof.Machine
end

