-- ==== Sys2Proof/Machine/Operands.lean ====
section
/-! DEFINITION. The operand forms an instruction's rule reads (spec 30_encoding.md R82, 20_memory.md
R61, 40_display.md R102). A register operand is `State.getV`, an 8-bit immediate is used as it is. -/

namespace Sys2Proof.Machine

/-- The address operand nnn, zero-extended (R82). -/
def addrOperand (nnn : Addr12) : Nat := nnn.toNat

/-- The address of an access at offset k through I: (I + k) mod 4096 (R61). -/
def State.addrI (s : State) (k : Nat) : Nat := (s.index.toNat + k) % memSize

/-- V0..Vx in register order: the operand of the block store (R188). -/
def State.regsUpTo (s : State) (x : Nibble) : List Byte :=
  (List.range (x.toNat + 1)).map fun k => s.getV (BitVec.ofNat 4 k)

/-- The `count` bytes at I, I + 1, …: the operand of the block load (R190) and the sprite (R101). -/
def State.bytesAtI (s : State) (count : Nat) : List Byte :=
  (List.range count).map fun k => s.readMem (s.addrI k)

/-- The three decimal digits of a byte, hundreds first (R186). -/
def bcdDigits (b : Byte) : List Byte :=
  [BitVec.ofNat 8 (b.toNat / 100), BitVec.ofNat 8 (b.toNat / 10 % 10), BitVec.ofNat 8 (b.toNat % 10)]

/-- The start column of a sprite: V[x] mod 64 (R102). -/
def State.spriteX (s : State) (x : Nibble) : Nat := (s.getV x).toNat % 64

/-- The start row of a sprite: V[y] mod 32 (R102). -/
def State.spriteY (s : State) (y : Nibble) : Nat := (s.getV y).toNat % 32

/-- The target of Bnnn: nnn + V0, always V0 (R127). -/
def State.offsetTarget (s : State) (nnn : Addr12) : Nat := addrOperand nnn + (s.getV 0#4).toNat

/-- The font address of a digit: V[x] × 5, with no masking (R184). -/
def State.glyphAddr (s : State) (x : Nibble) : Nat := (s.getV x).toNat * 5

/-- The exact sum I + V[x] (R181). -/
def State.indexSum (s : State) (x : Nibble) : Nat := s.index.toNat + (s.getV x).toNat

end Sys2Proof.Machine
end

