-- ==== Sys2Proof/Machine/Flags.lean ====
section
/-! DEFINITION. The flag values of VF (spec 10_state.md R23) and how a result and a flag are written
together (42_alu.md R151). -/

namespace Sys2Proof.Machine

/-- VF, register 0xF (R20). -/
def vF : Nibble := 0xF#4

/-- A flag as the value VF gets: 1 or 0 (R23). -/
def flagByte (b : Bool) : Byte := if b then 1#8 else 0#8

/-- Carry out of 8xy4: the exact sum is above 255 (R158). -/
def carryFlag (a b : Byte) : Byte := flagByte (decide (255 < a.toNat + b.toNat))

/-- Not-borrow of a − b, for 8xy5 and 8xy7: 1 when a ≥ b (R160, R168). -/
def notBorrowFlag (a b : Byte) : Byte := flagByte (decide (b.toNat ≤ a.toNat))

/-- The bit 8xy6 shifts out: bit 0 (R162). -/
def shiftedOutRight (a : Byte) : Byte := flagByte (a.getLsbD 0)

/-- The bit 8xyE shifts out: bit 7 (R164). -/
def shiftedOutLeft (a : Byte) : Byte := flagByte (a.getLsbD 7)

/-- The overflow flag of Fx1E: the exact sum is above 0x0FFF (R182). -/
def indexOverflowFlag (sum : Nat) : Byte := flagByte (decide (0x0FFF < sum))

/-- write_flagged(res, f) of R151: V[x] <- res and VF <- f, in the order FLAG_ORDER gives. -/
def State.writeFlagged (s : State) (x : Nibble) (res f : Byte) : State :=
  match s.config.flagOrder with
  | .flagThenResult => (s.setV vF f).setV x res
  | .resultThenFlag => (s.setV x res).setV vF f

end Sys2Proof.Machine
end

