-- ==== Sys2Proof/Machine/Alu.lean ====
section
/-! DEFINITION. Register arithmetic and logic (spec 42_alu.md R150-R170). -/

namespace Sys2Proof.Machine

/-- `6xkk` LD Vx, kk (R152). -/
def execLdImm (x : Nibble) (kk : Byte) (s : State) : Host.Outcome State Fault Refusal :=
  .next (s.setV x kk).advance

/-- `7xkk` ADD Vx, kk: mod 256, no flag (R153). -/
def execAddImm (x : Nibble) (kk : Byte) (s : State) : Host.Outcome State Fault Refusal :=
  .next (s.setV x (s.getV x + kk)).advance

/-- `8xy0` LD Vx, Vy (R154). -/
def execLdReg (x y : Nibble) (s : State) : Host.Outcome State Fault Refusal :=
  .next (s.setV x (s.getV y)).advance

/-- `8xy1` OR Vx, Vy: VF is no flag here (R155). -/
def execOrReg (x y : Nibble) (s : State) : Host.Outcome State Fault Refusal :=
  .next (s.setV x (s.getV x ||| s.getV y)).advance

/-- `8xy2` AND Vx, Vy (R156). -/
def execAndReg (x y : Nibble) (s : State) : Host.Outcome State Fault Refusal :=
  .next (s.setV x (s.getV x &&& s.getV y)).advance

/-- `8xy3` XOR Vx, Vy (R157). -/
def execXorReg (x y : Nibble) (s : State) : Host.Outcome State Fault Refusal :=
  .next (s.setV x (s.getV x ^^^ s.getV y)).advance

/-- `8xy4` ADD Vx, Vy (R158). -/
def execAddReg (x y : Nibble) (s : State) : Host.Outcome State Fault Refusal :=
  .next (s.writeFlagged x (s.getV x + s.getV y) (carryFlag (s.getV x) (s.getV y))).advance

/-- `8xy5` SUB Vx, Vy (R160). -/
def execSub (x y : Nibble) (s : State) : Host.Outcome State Fault Refusal :=
  .next (s.writeFlagged x (s.getV x - s.getV y) (notBorrowFlag (s.getV x) (s.getV y))).advance

/-- `8xy6` SHR Vx: y is ignored (R162, D12). -/
def execShr (x _y : Nibble) (s : State) : Host.Outcome State Fault Refusal :=
  .next (s.writeFlagged x (s.getV x >>> 1) (shiftedOutRight (s.getV x))).advance

/-- `8xy7` SUBN Vx, Vy where HAS_SUBN; an unknown opcode elsewhere (R168, R304; log 3). -/
def execSubn (x y : Nibble) (s : State) : Host.Outcome State Fault Refusal :=
  if s.config.hasSubn then
    .next (s.writeFlagged x (s.getV y - s.getV x) (notBorrowFlag (s.getV y) (s.getV x))).advance
  else .next s.unknownOpcode

/-- `8xyE` SHL Vx: y is ignored (R164, D12). -/
def execShl (x _y : Nibble) (s : State) : Host.Outcome State Fault Refusal :=
  .next (s.writeFlagged x (s.getV x <<< 1) (shiftedOutLeft (s.getV x))).advance

end Sys2Proof.Machine
end

