-- ==== Sys2Proof/Machine/Control.lean ====
section
/-! DEFINITION. Control transfer (spec 41_control_flow.md R118-R128). -/

namespace Sys2Proof.Machine

/-- `00EE` RET: StackUnderflow when sp = 0, else pc <- the popped entry (R120, R303). -/
def execRet (s : State) : Host.Outcome State Fault Refusal :=
  if s.sp = 0#5 then .next (s.raise .stackUnderflow)
  else
    match s.popStack with
    | some (t, s') => .next (s'.jump t.toNat)
    | none => .fault .noStackEntry

/-- `1nnn` JP nnn (R121). -/
def execJp (nnn : Addr12) (s : State) : Host.Outcome State Fault Refusal :=
  .next (s.jump (addrOperand nnn))

/-- `2nnn` CALL nnn: StackOverflow when sp = 16, else push pc + 2 and jump (R122, R303; C4). -/
def execCall (nnn : Addr12) (s : State) : Host.Outcome State Fault Refusal :=
  if s.sp = 16#5 then .next (s.raise .stackOverflow)
  else
    match s.pushStack (s.pc.toNat + 2) with
    | some s' => .next (s'.jump (addrOperand nnn))
    | none => .fault .noStackEntry

/-- `3xkk` SE Vx, kk (R123). -/
def execSeImm (x : Nibble) (kk : Byte) (s : State) : Host.Outcome State Fault Refusal :=
  .next (s.skipIf (s.getV x == kk))

/-- `4xkk` SNE Vx, kk (R124). -/
def execSneImm (x : Nibble) (kk : Byte) (s : State) : Host.Outcome State Fault Refusal :=
  .next (s.skipIf (s.getV x != kk))

/-- `5xy0` SE Vx, Vy (R125). -/
def execSeReg (x y : Nibble) (s : State) : Host.Outcome State Fault Refusal :=
  .next (s.skipIf (s.getV x == s.getV y))

/-- `9xy0` SNE Vx, Vy (R126). -/
def execSneReg (x y : Nibble) (s : State) : Host.Outcome State Fault Refusal :=
  .next (s.skipIf (s.getV x != s.getV y))

/-- `Bnnn` JP V0, nnn (R127). -/
def execJpV0 (nnn : Addr12) (s : State) : Host.Outcome State Fault Refusal :=
  .next (s.jump (s.offsetTarget nnn))

end Sys2Proof.Machine
end

