-- ==== Sys2Proof/Machine/Display.lean ====
section
/-! DEFINITION. The display instructions (spec 40_display.md R100-R106). -/

namespace Sys2Proof.Machine

/-- `00E0` CLS: every pixel 0 (R100). -/
def execCls (s : State) : Host.Outcome State Fault Refusal :=
  .next (s.setFB Framebuffer.blank).advance

/-- The framebuffer after a sprite of n rows is drawn at (V[x], V[y]), and whether it collided
(R101-R104). Every operand is read from `s`, before any write (R11, R105). -/
def State.drawn (s : State) (x y n : Nibble) : Framebuffer × Bool :=
  drawRows s.config.spriteEdge (s.spriteX x) (s.spriteY y) (s.bytesAtI n.toNat) (s.fb, false)

/-- `Dxyn` DRW Vx, Vy, n: XOR the sprite in, VF <- collision (R101). -/
def execDrw (x y n : Nibble) (s : State) : Host.Outcome State Fault Refusal :=
  let d := s.drawn x y n
  .next ((s.setFB d.1).setV vF (flagByte d.2)).advance

end Sys2Proof.Machine
end

