-- ==== Sys2Proof/Machine/IndexMemory.lean ====
section
/-! DEFINITION. The index register and memory instructions (spec 43_index_memory.md R180-R190). -/

namespace Sys2Proof.Machine

/-- `Annn` LD I, nnn (R180). -/
def execLdI (nnn : Addr12) (s : State) : Host.Outcome State Fault Refusal :=
  .next (s.setIndex (addrOperand nnn)).advance

/-- `Fx1E` ADD I, Vx: mod 2^16, and VF <- overflow where ADD_I_SETS_VF (R181, R182). -/
def execAddI (x : Nibble) (s : State) : Host.Outcome State Fault Refusal :=
  let s1 := s.setIndex (s.indexSum x)
  .next (if s.config.addISetsVF then s1.setV vF (indexOverflowFlag (s.indexSum x)) else s1).advance

/-- `Fx29` LD F, Vx (R184). -/
def execLdF (x : Nibble) (s : State) : Host.Outcome State Fault Refusal :=
  .next (s.setIndex (s.glyphAddr x)).advance

/-- `Fx33` LD B, Vx: the three digits at I, I + 1, I + 2 (R186). -/
def execLdB (x : Nibble) (s : State) : Host.Outcome State Fault Refusal :=
  .next (s.writeMemBytes (s.addrI 0) (bcdDigits (s.getV x))).advance

/-- `Fx55` LD [I], Vx: V0..Vx at I, I + 1, … (R188). -/
def execLdMemVx (x : Nibble) (s : State) : Host.Outcome State Fault Refusal :=
  .next (s.writeMemBytes (s.addrI 0) (s.regsUpTo x)).advance

/-- `Fx65` LD Vx, [I]: V0..Vx from I, I + 1, … (R190). -/
def execLdVxMem (x : Nibble) (s : State) : Host.Outcome State Fault Refusal :=
  .next (s.setVs 0 (s.bytesAtI (x.toNat + 1))).advance

end Sys2Proof.Machine
end

