-- ==== Sys2Proof/Machine/RandomTimersKeys.lean ====
section
/-! DEFINITION. The random, key and timer instructions (spec 44_random_timers_keys.md R200-R214). -/

namespace Sys2Proof.Machine

/-- `Cxkk` RND Vx, kk (R200). -/
def execRnd (x : Nibble) (kk : Byte) (s : State) : Host.Outcome State Fault Refusal :=
  .next (s.takeRand.setV x (s.randByte &&& kk)).advance

/-- `Ex9E` SKP Vx: KeyIndexRange when V[x] names no key (R202, R305). -/
def execSkp (x : Nibble) (s : State) : Host.Outcome State Fault Refusal :=
  if 0x0F < (s.getV x).toNat then .next (s.raise .keyIndexRange)
  else .next (s.skipIf (s.key (s.getV x).toNat))

/-- `ExA1` SKNP Vx (R204, R305). -/
def execSknp (x : Nibble) (s : State) : Host.Outcome State Fault Refusal :=
  if 0x0F < (s.getV x).toNat then .next (s.raise .keyIndexRange)
  else .next (s.skipIf (!s.key (s.getV x).toNat))

/-- `Fx07` LD Vx, DT (R206). -/
def execLdVxDT (x : Nibble) (s : State) : Host.Outcome State Fault Refusal :=
  .next (s.setV x s.dt).advance

/-- `Fx0A` LD Vx, K: the lowest pressed key, or no write at all (R212, R214). -/
def execLdVxK (x : Nibble) (s : State) : Host.Outcome State Fault Refusal :=
  match s.firstKey with
  | some k => .next (s.setV x (BitVec.ofNat 8 k)).advance
  | none => .next s

/-- `Fx15` LD DT, Vx (R208). -/
def execLdDTVx (x : Nibble) (s : State) : Host.Outcome State Fault Refusal :=
  .next (s.setDT (s.getV x)).advance

/-- `Fx18` LD ST, Vx (R210). -/
def execLdSTVx (x : Nibble) (s : State) : Host.Outcome State Fault Refusal :=
  .next (s.setST (s.getV x)).advance

end Sys2Proof.Machine
end

