-- ==== Sys2Proof/Syntax.lean ====
section
/-! DEFINITION. The instructions: one constructor for each of the 34 rows of the opcode map
(spec 30_encoding.md R84, opcode_table.json), in the table's order. -/

namespace Sys2Proof

/-- An instruction with its operands. Register operands are 4-bit indexes (R20, R81), immediates have
their encoded width and are unsigned (R82). The `y` of SHR and SHL is an operand the word carries and
the semantics ignore (R86), kept so that no bit of a word is lost. -/
inductive Instr where
  /-- `00E0` CLS (R100). -/
  | cls
  /-- `00EE` RET (R120). -/
  | ret
  /-- `1nnn` JP nnn (R121). -/
  | jp (nnn : Addr12)
  /-- `2nnn` CALL nnn (R122). -/
  | call (nnn : Addr12)
  /-- `3xkk` SE Vx, kk (R123). -/
  | seImm (x : Nibble) (kk : Byte)
  /-- `4xkk` SNE Vx, kk (R124). -/
  | sneImm (x : Nibble) (kk : Byte)
  /-- `5xy0` SE Vx, Vy (R125). -/
  | seReg (x y : Nibble)
  /-- `6xkk` LD Vx, kk (R152). -/
  | ldImm (x : Nibble) (kk : Byte)
  /-- `7xkk` ADD Vx, kk (R153). -/
  | addImm (x : Nibble) (kk : Byte)
  /-- `8xy0` LD Vx, Vy (R154). -/
  | ldReg (x y : Nibble)
  /-- `8xy1` OR Vx, Vy (R155). -/
  | orReg (x y : Nibble)
  /-- `8xy2` AND Vx, Vy (R156). -/
  | andReg (x y : Nibble)
  /-- `8xy3` XOR Vx, Vy (R157). -/
  | xorReg (x y : Nibble)
  /-- `8xy4` ADD Vx, Vy (R158). -/
  | addReg (x y : Nibble)
  /-- `8xy5` SUB Vx, Vy (R160). -/
  | sub (x y : Nibble)
  /-- `8xy6` SHR Vx, Vy: y is ignored (R162). -/
  | shr (x y : Nibble)
  /-- `8xy7` SUBN Vx, Vy: an instruction only where HAS_SUBN (R168). -/
  | subn (x y : Nibble)
  /-- `8xyE` SHL Vx, Vy: y is ignored (R164). -/
  | shl (x y : Nibble)
  /-- `9xy0` SNE Vx, Vy (R126). -/
  | sneReg (x y : Nibble)
  /-- `Annn` LD I, nnn (R180). -/
  | ldI (nnn : Addr12)
  /-- `Bnnn` JP V0, nnn (R127). -/
  | jpV0 (nnn : Addr12)
  /-- `Cxkk` RND Vx, kk (R200). -/
  | rnd (x : Nibble) (kk : Byte)
  /-- `Dxyn` DRW Vx, Vy, n (R101). -/
  | drw (x y n : Nibble)
  /-- `Ex9E` SKP Vx (R202). -/
  | skp (x : Nibble)
  /-- `ExA1` SKNP Vx (R204). -/
  | sknp (x : Nibble)
  /-- `Fx07` LD Vx, DT (R206). -/
  | ldVxDT (x : Nibble)
  /-- `Fx0A` LD Vx, K (R212). -/
  | ldVxK (x : Nibble)
  /-- `Fx15` LD DT, Vx (R208). -/
  | ldDTVx (x : Nibble)
  /-- `Fx18` LD ST, Vx (R210). -/
  | ldSTVx (x : Nibble)
  /-- `Fx1E` ADD I, Vx (R181). -/
  | addI (x : Nibble)
  /-- `Fx29` LD F, Vx (R184). -/
  | ldF (x : Nibble)
  /-- `Fx33` LD B, Vx (R186). -/
  | ldB (x : Nibble)
  /-- `Fx55` LD [I], Vx (R188). -/
  | ldMemVx (x : Nibble)
  /-- `Fx65` LD Vx, [I] (R190). -/
  | ldVxMem (x : Nibble)
deriving DecidableEq, Repr

end Sys2Proof
end

