-- ==== Sys2Proof/WellFormed.lean ====
section
/-! DEFINITION. Which instructions a machine of a given configuration has. Every operand's range is in
its type (`Nibble`, `Byte`, `Addr12`), so the one check left is HAS_SUBN (spec 42_alu.md R168). -/

namespace Sys2Proof

/-- Whether the machine configured by `cfg` has the instruction: all of the opcode map, and SUBN only
where HAS_SUBN is true (R84, R168). Operands of every value are legal (R20, R82). -/
def Instr.wellFormed (cfg : Config) : Instr → Bool
  | .subn _ _ => cfg.hasSubn
  | .cls | .ret | .jp _ | .call _ | .seImm _ _ | .sneImm _ _ | .seReg _ _ | .ldImm _ _ | .addImm _ _
  | .ldReg _ _ | .orReg _ _ | .andReg _ _ | .xorReg _ _ | .addReg _ _ | .sub _ _ | .shr _ _
  | .shl _ _ | .sneReg _ _ | .ldI _ | .jpV0 _ | .rnd _ _ | .drw _ _ _ | .skp _ | .sknp _
  | .ldVxDT _ | .ldVxK _ | .ldDTVx _ | .ldSTVx _ | .addI _ | .ldF _ | .ldB _ | .ldMemVx _
  | .ldVxMem _ => true

end Sys2Proof
end

