-- ==== Sys2Proof/Decode.lean ====
section
/-! DEFINITION. From bytes to instructions and back: the fields of a word, the decoder, the opcode map
as a table, and the encoder (spec 30_encoding.md R80-R87). -/

namespace Sys2Proof

/-! ### The fields of an instruction word (R81) -/

/-- op = w[15:12]. -/
def opField (w : Word) : Nibble := w.extractLsb' 12 4
/-- x = w[11:8]. -/
def xField (w : Word) : Nibble := w.extractLsb' 8 4
/-- y = w[7:4]. -/
def yField (w : Word) : Nibble := w.extractLsb' 4 4
/-- n = w[3:0]. -/
def nField (w : Word) : Nibble := w.extractLsb' 0 4
/-- kk = w[7:0]. -/
def kkField (w : Word) : Byte := w.extractLsb' 0 8
/-- nnn = w[11:0]. -/
def nnnField (w : Word) : Addr12 := w.extractLsb' 0 12

/-! ### The decoder -/

/-- Why bytes decode to no instruction. -/
inductive DecodeError where
  /-- Fewer than two bytes: every instruction is 16 bits (R87). -/
  | truncated
  /-- `0nnn` other than 00E0 and 00EE (R85). -/
  | unknown0
  /-- `5xyn` with n ≠ 0 (R85). -/
  | unknown5
  /-- `8xyn` with n in 8, 9, A, B, C, D, F (R85). -/
  | unknown8
  /-- `8xy7` where HAS_SUBN is false (R85, R168). -/
  | subnAbsent
  /-- `9xyn` with n ≠ 0 (R85). -/
  | unknown9
  /-- `Exkk` with kk other than 9E and A1 (R85). -/
  | unknownE
  /-- `Fxkk` with kk outside the nine rows of group F (R85). -/
  | unknownF
deriving DecidableEq, Repr

/-- Group 0: the whole word is checked (R83, R86; C14). -/
def decode0 (w : Word) : Except DecodeError Instr :=
  if w = 0x00E0 then .ok .cls
  else if w = 0x00EE then .ok .ret
  else .error .unknown0

/-- Group 5: n = 0 is required (R83, R86). -/
def decode5 (w : Word) : Except DecodeError Instr :=
  if nField w = 0x0 then .ok (.seReg (xField w) (yField w)) else .error .unknown5

/-- Group 8: the second dispatch is on n (R83). -/
def decode8 (w : Word) : Except DecodeError Instr :=
  match (nField w).toNat with
  | 0x0 => .ok (.ldReg (xField w) (yField w))
  | 0x1 => .ok (.orReg (xField w) (yField w))
  | 0x2 => .ok (.andReg (xField w) (yField w))
  | 0x3 => .ok (.xorReg (xField w) (yField w))
  | 0x4 => .ok (.addReg (xField w) (yField w))
  | 0x5 => .ok (.sub (xField w) (yField w))
  | 0x6 => .ok (.shr (xField w) (yField w))
  | 0x7 => .ok (.subn (xField w) (yField w))
  | 0xE => .ok (.shl (xField w) (yField w))
  | _ => .error .unknown8

/-- Group 9: n = 0 is required (R83, R86). -/
def decode9 (w : Word) : Except DecodeError Instr :=
  if nField w = 0x0 then .ok (.sneReg (xField w) (yField w)) else .error .unknown9

/-- Group E: the second dispatch is on kk (R83). -/
def decodeE (w : Word) : Except DecodeError Instr :=
  if kkField w = 0x9E then .ok (.skp (xField w))
  else if kkField w = 0xA1 then .ok (.sknp (xField w))
  else .error .unknownE

/-- Group F: the second dispatch is on kk (R83). -/
def decodeF (w : Word) : Except DecodeError Instr :=
  if kkField w = 0x07 then .ok (.ldVxDT (xField w))
  else if kkField w = 0x0A then .ok (.ldVxK (xField w))
  else if kkField w = 0x15 then .ok (.ldDTVx (xField w))
  else if kkField w = 0x18 then .ok (.ldSTVx (xField w))
  else if kkField w = 0x1E then .ok (.addI (xField w))
  else if kkField w = 0x29 then .ok (.ldF (xField w))
  else if kkField w = 0x33 then .ok (.ldB (xField w))
  else if kkField w = 0x55 then .ok (.ldMemVx (xField w))
  else if kkField w = 0x65 then .ok (.ldVxMem (xField w))
  else .error .unknownF

/-- Decode one word by its top nibble, with a second dispatch on the whole word for op 0, on n for
op 8, on kk for ops E and F, and n = 0 required for ops 5 and 9 (R83, R84, R86; C1, C14).
8xy7 decodes in every configuration; `decodeFor` and `Machine.execSubn` apply HAS_SUBN (log 3). -/
def decodeWord (w : Word) : Except DecodeError Instr :=
  match (opField w).toNat with
  | 0x0 => decode0 w
  | 0x1 => .ok (.jp (nnnField w))
  | 0x2 => .ok (.call (nnnField w))
  | 0x3 => .ok (.seImm (xField w) (kkField w))
  | 0x4 => .ok (.sneImm (xField w) (kkField w))
  | 0x5 => decode5 w
  | 0x6 => .ok (.ldImm (xField w) (kkField w))
  | 0x7 => .ok (.addImm (xField w) (kkField w))
  | 0x8 => decode8 w
  | 0x9 => decode9 w
  | 0xA => .ok (.ldI (nnnField w))
  | 0xB => .ok (.jpV0 (nnnField w))
  | 0xC => .ok (.rnd (xField w) (kkField w))
  | 0xD => .ok (.drw (xField w) (yField w) (nField w))
  | 0xE => decodeE w
  | _ => decodeF w

/-- Two bytes as an instruction word, the byte at the lower address in bits 15:8 (R62). -/
def wordOfBytes (hi lo : Byte) : Word := hi ++ lo

/-- Decode the first instruction of a list of bytes, and return the bytes after it (R87). -/
def decode : List Byte → Except DecodeError (Instr × List Byte)
  | hi :: lo :: rest =>
    match decodeWord (wordOfBytes hi lo) with
    | .ok i => .ok (i, rest)
    | .error e => .error e
  | [_] => .error .truncated
  | [] => .error .truncated

/-- The decoder of a machine configured by `cfg`: 8xy7 is an unknown opcode where HAS_SUBN is false
(R84, R85, R168). -/
def decodeFor (cfg : Config) (w : Word) : Except DecodeError Instr :=
  match decodeWord w with
  | .ok i => if i.wellFormed cfg then .ok i else .error .subnAbsent
  | .error e => .error e

/-! ### The encoder (R81, R84) -/

/-- A word of op and nnn. -/
def wordOpNNN (op : Nibble) (nnn : Addr12) : Word := op ++ nnn
/-- A word of op, x and kk. -/
def wordOpXKK (op x : Nibble) (kk : Byte) : Word := op ++ x ++ kk
/-- A word of op, x, y and n. -/
def wordOpXYN (op x y n : Nibble) : Word := op ++ x ++ y ++ n

/-- The word of an instruction, from the patterns of R84. -/
def encode : Instr → Word
  | .cls => 0x00E0
  | .ret => 0x00EE
  | .jp nnn => wordOpNNN 0x1 nnn
  | .call nnn => wordOpNNN 0x2 nnn
  | .seImm x kk => wordOpXKK 0x3 x kk
  | .sneImm x kk => wordOpXKK 0x4 x kk
  | .seReg x y => wordOpXYN 0x5 x y 0x0
  | .ldImm x kk => wordOpXKK 0x6 x kk
  | .addImm x kk => wordOpXKK 0x7 x kk
  | .ldReg x y => wordOpXYN 0x8 x y 0x0
  | .orReg x y => wordOpXYN 0x8 x y 0x1
  | .andReg x y => wordOpXYN 0x8 x y 0x2
  | .xorReg x y => wordOpXYN 0x8 x y 0x3
  | .addReg x y => wordOpXYN 0x8 x y 0x4
  | .sub x y => wordOpXYN 0x8 x y 0x5
  | .shr x y => wordOpXYN 0x8 x y 0x6
  | .subn x y => wordOpXYN 0x8 x y 0x7
  | .shl x y => wordOpXYN 0x8 x y 0xE
  | .sneReg x y => wordOpXYN 0x9 x y 0x0
  | .ldI nnn => wordOpNNN 0xA nnn
  | .jpV0 nnn => wordOpNNN 0xB nnn
  | .rnd x kk => wordOpXKK 0xC x kk
  | .drw x y n => wordOpXYN 0xD x y n
  | .skp x => wordOpXKK 0xE x 0x9E
  | .sknp x => wordOpXKK 0xE x 0xA1
  | .ldVxDT x => wordOpXKK 0xF x 0x07
  | .ldVxK x => wordOpXKK 0xF x 0x0A
  | .ldDTVx x => wordOpXKK 0xF x 0x15
  | .ldSTVx x => wordOpXKK 0xF x 0x18
  | .addI x => wordOpXKK 0xF x 0x1E
  | .ldF x => wordOpXKK 0xF x 0x29
  | .ldB x => wordOpXKK 0xF x 0x33
  | .ldMemVx x => wordOpXKK 0xF x 0x55
  | .ldVxMem x => wordOpXKK 0xF x 0x65

/-- The high byte of a word, the one at the lower address (R62). -/
def highByte (w : Word) : Byte := w.extractLsb' 8 8
/-- The low byte of a word. -/
def lowByte (w : Word) : Byte := w.extractLsb' 0 8

/-- The two bytes of an instruction in memory order (R62). -/
def encodeBytes (i : Instr) : List Byte := [highByte (encode i), lowByte (encode i)]

/-! ### The opcode map as a table (R84)

The decoder above does not read this table: the two are separate transcriptions of R83 and R84, and
statements compare them. -/

/-- One row of R84: a word belongs to the row when `word &&& mask = value`. -/
structure OpcodeRow where
  mask : Word
  value : Word
deriving DecidableEq, Repr

/-- The row of the opcode map an instruction belongs to: R84's column mask / match. -/
def Instr.row : Instr → OpcodeRow
  | .cls => ⟨0xFFFF, 0x00E0⟩
  | .ret => ⟨0xFFFF, 0x00EE⟩
  | .jp _ => ⟨0xF000, 0x1000⟩
  | .call _ => ⟨0xF000, 0x2000⟩
  | .seImm _ _ => ⟨0xF000, 0x3000⟩
  | .sneImm _ _ => ⟨0xF000, 0x4000⟩
  | .seReg _ _ => ⟨0xF00F, 0x5000⟩
  | .ldImm _ _ => ⟨0xF000, 0x6000⟩
  | .addImm _ _ => ⟨0xF000, 0x7000⟩
  | .ldReg _ _ => ⟨0xF00F, 0x8000⟩
  | .orReg _ _ => ⟨0xF00F, 0x8001⟩
  | .andReg _ _ => ⟨0xF00F, 0x8002⟩
  | .xorReg _ _ => ⟨0xF00F, 0x8003⟩
  | .addReg _ _ => ⟨0xF00F, 0x8004⟩
  | .sub _ _ => ⟨0xF00F, 0x8005⟩
  | .shr _ _ => ⟨0xF00F, 0x8006⟩
  | .subn _ _ => ⟨0xF00F, 0x8007⟩
  | .shl _ _ => ⟨0xF00F, 0x800E⟩
  | .sneReg _ _ => ⟨0xF00F, 0x9000⟩
  | .ldI _ => ⟨0xF000, 0xA000⟩
  | .jpV0 _ => ⟨0xF000, 0xB000⟩
  | .rnd _ _ => ⟨0xF000, 0xC000⟩
  | .drw _ _ _ => ⟨0xF000, 0xD000⟩
  | .skp _ => ⟨0xF0FF, 0xE09E⟩
  | .sknp _ => ⟨0xF0FF, 0xE0A1⟩
  | .ldVxDT _ => ⟨0xF0FF, 0xF007⟩
  | .ldVxK _ => ⟨0xF0FF, 0xF00A⟩
  | .ldDTVx _ => ⟨0xF0FF, 0xF015⟩
  | .ldSTVx _ => ⟨0xF0FF, 0xF018⟩
  | .addI _ => ⟨0xF0FF, 0xF01E⟩
  | .ldF _ => ⟨0xF0FF, 0xF029⟩
  | .ldB _ => ⟨0xF0FF, 0xF033⟩
  | .ldMemVx _ => ⟨0xF0FF, 0xF055⟩
  | .ldVxMem _ => ⟨0xF0FF, 0xF065⟩

/-! ### The host's question -/

/-- The two bytes, as memory holds them, of a table word of `nbits` bits: one 16-bit word, its bits
above `nbits` zero. -/
def tableBytes (nbits w : Nat) : List Byte :=
  let word := BitVec.ofNat 16 (w % 2 ^ nbits)
  [highByte word, lowByte word]

/-- The instruction the decoder reads from a word numbered as opcode_table.json numbers its bits. -/
def decodeTableWord (nbits w : Nat) : Option Instr :=
  match decode (tableBytes nbits w) with
  | .ok (i, _) => some i
  | .error _ => none

end Sys2Proof
end

