-- ==== Sys2Proof/Machine/Fetch.lean ====
section
/-! DEFINITION. The fetch (spec 30_encoding.md R80, 20_memory.md R61, R62). -/

namespace Sys2Proof.Machine

/-- The bytes at pc and pc + 1, each address mod 4096 (R61, R80). -/
def State.fetchBytes (s : State) : List Byte := [s.readMem s.pc.toNat, s.readMem (s.pc.toNat + 1)]

/-- The instruction word at pc, big-endian (R62, R80). -/
def State.fetchWord (s : State) : Word :=
  wordOfBytes (s.readMem s.pc.toNat) (s.readMem (s.pc.toNat + 1))

/-- The state in which the fetched instruction executes: the opcode latch holds the word (R80). -/
def State.fetched (s : State) : State := s.latch s.fetchWord

end Sys2Proof.Machine
end

