-- ==== Sys2Proof/Machine/Step.lean ====
section
/-! DEFINITION. One STEP event: fetch, decode, execute (spec 30_encoding.md R80, 60_exceptions.md R302,
R304). -/

namespace Sys2Proof.Machine

/-- A STEP event. A halted CORE takes no step (R80, R302). Otherwise the word at pc is fetched and
latched, and either its instruction executes or it is an unknown opcode (R85, R304). Each
instruction's rule writes pc itself (R10, R27): nothing is added around `exec`. -/
def step (s : State) : Host.Outcome State Fault Refusal :=
  if s.halted then .next s
  else
    match decode s.fetchBytes with
    | .ok (i, _) => exec i s.fetched
    | .error _ => .next s.fetched.unknownOpcode

/-- The state with a table word stored at pc, so that the very next step fetches and runs it (log 7).
A halted CORE fetches nothing, so FAULT_CODE is cleared. -/
def State.withFetchWord (s : State) (nbits w : Nat) : State :=
  { s with faultCode := 0#8, mem := Memory.writeBytes s.mem s.pc.toNat (tableBytes nbits w) }

end Sys2Proof.Machine
end

