-- ==== Sys2Proof/Machine/Events.lean ====
section
/-! DEFINITION. The events of spec 00_scope.md R12 besides STEP: TICK, KEYS, LOAD and RESET, and the
host's supply of the random input (R13). -/

namespace Sys2Proof.Machine

/-- One timer floored at zero: t − 1 unless it is 0 (R320). -/
def countDown (t : Byte) : Byte := if t = 0#8 then 0#8 else t - 1#8

/-- TICK: each timer falls by 1 unless it is 0, halted or not, and nothing else changes (R320). -/
def State.tick (s : State) : State := { s with dt := countDown s.dt, st := countDown s.st }

/-- KEYS(k): K[i] <- k[i] for every key, and nothing else changes (R325). -/
def State.setKeys (s : State) (k : BitVec 16) : State := { s with keys := k }

/-- LOAD(image): the image at 0x200, no register changes (R403). An image larger than 3584 bytes is
rejected and changes no state (R404). -/
def State.load (s : State) (image : List Byte) : State :=
  if image.length ≤ progMax then s.writeMemBytes progBase image else s

/-- The reset state of a machine configured by `cfg` (R400, R401): all state zeroed, its font copied to
0x000-0x04F, pc at 0x200. -/
def State.resetWith (cfg : Config) : State :=
  { State.reset with
    config := cfg
    mem := Memory.writeBytes [] 0 cfg.font.toList }

/-- RESET (R400). The configuration, and what the host has lined up and drawn of the random input, are
no state of the spec (R47) and are kept, so that no free value is drawn twice (log 5). -/
def State.resetEvent (s : State) : State :=
  { State.resetWith s.config with randomInput := s.randomInput, randomCount := s.randomCount }

/-- The host lines up one more byte on the random input (R13; log 4). -/
def State.supplyRandom (s : State) (b : Byte) : State :=
  { s with randomInput := s.randomInput ++ [b] }

/-- The events of R12. -/
inductive Event where
  | step
  | tick
  | keys (k : BitVec 16)
  | load (image : List Byte)
  | reset
deriving DecidableEq, Repr

/-- One event (R12). -/
def applyEvent (e : Event) (s : State) : Host.Outcome State Fault Refusal :=
  match e with
  | .step => step s
  | .tick => .next s.tick
  | .keys k => .next (s.setKeys k)
  | .load image => .next (s.load image)
  | .reset => .next s.resetEvent

/-- Events one after another, stopping where the model stops. -/
def runEvents : List Event → State → Host.Outcome State Fault Refusal
  | [], s => .next s
  | e :: rest, s =>
    match applyEvent e s with
    | .next t => runEvents rest t
    | .fault r => .fault r
    | .refused r => .refused r

/-- Whether a sequence of events keeps R403's order: a LOAD only after a RESET and before the first
STEP. `fresh` says that no STEP has happened since the last RESET. -/
def admitted : Bool → List Event → Bool
  | _, [] => true
  | _, .step :: rest => admitted false rest
  | fresh, .tick :: rest => admitted fresh rest
  | fresh, .keys _ :: rest => admitted fresh rest
  | fresh, .load _ :: rest => fresh && admitted fresh rest
  | _, .reset :: rest => admitted true rest

end Sys2Proof.Machine
end

