-- ==== Sys2Proof/Safety.lean ====
section
/-! DEFINITION. The terms statements are made in: what an instruction leaves unchanged, the invariant of
the machine, the states a run reaches, and a safe run (spec 60_exceptions.md R333). -/

namespace Sys2Proof.Machine

/-! ### Frames -/

/-- The parts of the state a frame speaks of: each piece of state of the spec's list (10_state.md
R20-R44), the configuration, and the random input. -/
inductive Part where
  | regs
  | index
  | pc
  | stack
  | sp
  | dt
  | st
  | screen
  | latch
  | fault
  | trace
  | keys
  | memory
  | config
  | random
deriving DecidableEq, Repr

/-- That a part is the same in two states. Memory and pixels are compared through their reads, for
every address and every pixel. -/
def Part.same (s t : State) : Part → Prop
  | .regs => ∀ r, t.getV r = s.getV r
  | .index => t.index = s.index
  | .pc => t.pc = s.pc
  | .stack => t.stack = s.stack
  | .sp => t.sp = s.sp
  | .dt => t.dt = s.dt
  | .st => t.st = s.st
  | .screen => ∀ x y, t.pixel x y = s.pixel x y
  | .latch => t.opcode = s.opcode
  | .fault => t.faultCode = s.faultCode ∧ t.faultPC = s.faultPC ∧ t.faultOpcode = s.faultOpcode
  | .trace =>
    t.unkCount = s.unkCount ∧ t.unkLastPC = s.unkLastPC ∧ t.unkLastOpcode = s.unkLastOpcode
  | .keys => t.keys = s.keys
  | .memory => ∀ a, t.readMem a = s.readMem a
  | .config => t.config = s.config
  | .random => t.randomInput = s.randomInput ∧ t.randomCount = s.randomCount

/-- Every part but the listed ones is unchanged (the frame of R11: "A rule that names no write to some
state leaves that state unchanged"). -/
def KeepsAllBut (changed : List Part) (s t : State) : Prop :=
  ∀ p : Part, p ∉ changed → p.same s t

/-- Every register but the listed ones is unchanged. -/
def KeepsRegsBut (changed : List Nibble) (s t : State) : Prop :=
  ∀ r : Nibble, r ∉ changed → t.getV r = s.getV r

/-- pc is the target stored mod 4096 (R26). -/
def PcIs (t : State) (target : Nat) : Prop := t.pc.toNat = target % memSize

/-! ### The invariant -/

/-- What holds of every state a run reaches (R26, R33, R40-R42, R44). -/
structure StateInv (s : State) : Prop where
  /-- Memory is in its canonical form. -/
  memory : Memory.wf s.mem
  /-- pc is in 0x000-0xFFF (R26). -/
  pc : s.pc.toNat < memSize
  /-- sp is in 0..16 (R33). -/
  sp : s.sp.toNat ≤ stackDepth
  /-- A pushed return address is stored mod 4096 (R122), and so is every entry. -/
  stack : ∀ k : Fin stackDepth, (s.stack.get k).toNat < memSize
  /-- The reserved values of FAULT_CODE are never written (R40). -/
  faultCode : s.faultCode.toNat ≤ 4
  /-- FAULT_PC and FAULT_OPCODE are written only when FAULT_CODE leaves 0 (R41). -/
  noFault : s.faultCode = 0#8 → s.faultPC = 0#16 ∧ s.faultOpcode = 0#16
  /-- A halted CORE stands at the faulting instruction, its word in the latch (R302). -/
  halted : s.faultCode ≠ 0#8 → s.faultPC = s.pc ∧ s.faultOpcode = s.opcode
  /-- UNKNOWN_OPCODE_POLICY = fault leaves no trace (R42, R304). -/
  noTrace : s.config.unknownOpcodePolicy = .fault →
    s.unkCount = 0#16 ∧ s.unkLastPC = 0#16 ∧ s.unkLastOpcode = 0#16
  /-- UNKNOWN_OPCODE_POLICY = skip never halts for an unknown opcode (R304). -/
  noUnknownFault : s.config.unknownOpcodePolicy = .skip → s.faultCode ≠ 1#8

/-! ### Runs -/

/-- The states a run reaches: from a reset under some configuration, by the events of R12 in any order
and any supply of the random input. LOAD is admitted at any time, which only adds runs. -/
inductive Reachable : State → Prop where
  | reset (cfg : Config) : Reachable (State.resetWith cfg)
  | event {s t : State} (e : Event) : Reachable s → applyEvent e s = .next t → Reachable t
  | supply {s : State} (b : Byte) : Reachable s → Reachable (s.supplyRandom b)

/-- A state from which a run is still good: a faulted state is a failure, never a normal completion
(R333). -/
def Running (s : State) : Prop := s.faultCode = 0#8

/-! ### What the rules say of every instruction -/

/-- The fault an instruction raises in a state, as R301 lists them; no other condition raises one.
8xy7 is an unknown opcode where HAS_SUBN is false (R85, R168). -/
def raisedBy (s : State) : Instr → Option FaultCause
  | .ret => if s.sp = 0#5 then some .stackUnderflow else none
  | .call _ => if s.sp = 16#5 then some .stackOverflow else none
  | .skp x | .sknp x => if 0x0F < (s.getV x).toNat then some .keyIndexRange else none
  | .subn _ _ =>
    if s.config.hasSubn = false ∧ s.config.unknownOpcodePolicy = .fault then some .unknownOpcode else none
  | .cls | .jp _ | .seImm _ _ | .sneImm _ _ | .seReg _ _ | .ldImm _ _ | .addImm _ _
  | .ldReg _ _ | .orReg _ _ | .andReg _ _ | .xorReg _ _ | .addReg _ _ | .sub _ _ | .shr _ _
  | .shl _ _ | .sneReg _ _ | .ldI _ | .jpV0 _ | .rnd _ _ | .drw _ _ _
  | .ldVxDT _ | .ldVxK _ | .ldDTVx _ | .ldSTVx _ | .addI _ | .ldF _ | .ldB _ | .ldMemVx _
  | .ldVxMem _ => none

/-- The registers an instruction writes, as R21 lists them. -/
def WritesReg (s : State) (r : Nibble) : Instr → Prop
  | .ldImm x _ | .addImm x _ | .ldReg x _ | .orReg x _ | .andReg x _ | .xorReg x _ | .rnd x _
  | .ldVxDT x => r = x
  | .addReg x _ | .sub x _ | .shr x _ | .shl x _ => r = x ∨ r = vF
  | .subn x _ => s.config.hasSubn = true ∧ (r = x ∨ r = vF)
  | .ldVxK x => r = x ∧ s.keys ≠ 0#16
  | .ldVxMem x => r.toNat ≤ x.toNat
  | .drw _ _ _ => r = vF
  | .addI _ => s.config.addISetsVF = true ∧ r = vF
  | .cls | .ret | .jp _ | .call _ | .seImm _ _ | .sneImm _ _ | .seReg _ _ | .sneReg _ _ | .ldI _
  | .jpV0 _ | .skp _ | .sknp _ | .ldDTVx _ | .ldSTVx _ | .ldF _ | .ldB _ | .ldMemVx _ => False

/-- The parts of the state an instruction may write: the writers R21, R27, R30, R32, R35, R37, R40-R42
and R60 name for each part. The keypad, the configuration and the opcode latch have none. -/
def writableParts (cfg : Config) : Instr → List Part
  | .cls => [.screen, .pc]
  | .ret => [.sp, .pc, .fault]
  | .call _ => [.stack, .sp, .pc, .fault]
  | .jp _ | .jpV0 _ | .seImm _ _ | .sneImm _ _ | .seReg _ _ | .sneReg _ _ => [.pc]
  | .ldImm _ _ | .addImm _ _ | .ldReg _ _ | .orReg _ _ | .andReg _ _ | .xorReg _ _ | .addReg _ _
  | .sub _ _ | .shr _ _ | .shl _ _ | .ldVxDT _ | .ldVxK _ | .ldVxMem _ => [.regs, .pc]
  | .subn _ _ => if cfg.hasSubn then [.regs, .pc] else [.fault, .trace, .pc]
  | .ldI _ | .ldF _ => [.index, .pc]
  | .addI _ => if cfg.addISetsVF then [.index, .regs, .pc] else [.index, .pc]
  | .rnd _ _ => [.regs, .random, .pc]
  | .drw _ _ _ => [.screen, .regs, .pc]
  | .skp _ | .sknp _ => [.pc, .fault]
  | .ldDTVx _ => [.dt, .pc]
  | .ldSTVx _ => [.st, .pc]
  | .ldB _ | .ldMemVx _ => [.memory, .pc]

/-- The next pc of R27's table, before it is taken mod 4096. -/
def nextPc (s : State) (i : Instr) : Nat :=
  if (raisedBy s i).isSome then s.pc.toNat
  else
    match i with
    | .seImm x kk => s.pc.toNat + if s.getV x = kk then 4 else 2
    | .sneImm x kk => s.pc.toNat + if s.getV x ≠ kk then 4 else 2
    | .seReg x y => s.pc.toNat + if s.getV x = s.getV y then 4 else 2
    | .sneReg x y => s.pc.toNat + if s.getV x ≠ s.getV y then 4 else 2
    | .skp x => s.pc.toNat + if s.key (s.getV x).toNat = true then 4 else 2
    | .sknp x => s.pc.toNat + if s.key (s.getV x).toNat = false then 4 else 2
    | .jp nnn => nnn.toNat
    | .jpV0 nnn => nnn.toNat + (s.getV 0#4).toNat
    | .call nnn => nnn.toNat
    | .ret => (s.stack.toList.getD (s.sp.toNat - 1) 0).toNat
    | .ldVxK _ => s.pc.toNat + if s.keys ≠ 0#16 then 2 else 0
    | .cls | .ldImm _ _ | .addImm _ _ | .ldReg _ _ | .orReg _ _ | .andReg _ _ | .xorReg _ _
    | .addReg _ _ | .sub _ _ | .shr _ _ | .subn _ _ | .shl _ _ | .ldI _ | .rnd _ _ | .drw _ _ _
    | .ldVxDT _ | .ldDTVx _ | .ldSTVx _ | .addI _ | .ldF _ | .ldB _ | .ldMemVx _ | .ldVxMem _ =>
      s.pc.toNat + 2

/-- The unknown words, as R85 lists them: op = w / 4096, n = w mod 16, kk = w mod 256. -/
def UnknownWord (cfg : Config) (w : Word) : Prop :=
  let op := w.toNat / 4096
  let n := w.toNat % 16
  let kk := w.toNat % 256
  (op = 0x0 ∧ w.toNat ≠ 0x00E0 ∧ w.toNat ≠ 0x00EE) ∨
  ((op = 0x5 ∨ op = 0x9) ∧ n ≠ 0) ∨
  (op = 0x8 ∧ (n ∈ [0x8, 0x9, 0xA, 0xB, 0xC, 0xD, 0xF] ∨ (n = 0x7 ∧ cfg.hasSubn = false))) ∨
  (op = 0xE ∧ kk ∉ [0x9E, 0xA1]) ∨
  (op = 0xF ∧ kk ∉ [0x07, 0x0A, 0x15, 0x18, 0x1E, 0x29, 0x33, 0x55, 0x65])

/-! ### Results -/

/-- VF holds the flag: 1 where the condition holds, 0 where it does not (R23). -/
def FlagIs (t : State) (flag : Prop) : Prop :=
  (flag → t.getV vF = 1#8) ∧ (¬ flag → t.getV vF = 0#8)

/-- A result mod 256 in V[x] and a flag in VF, and no other register written. Where x = F the two
halves name one register, and FLAG_ORDER decides which one holds (R151, R159). -/
def ResultAndFlag (s t : State) (x : Nibble) (res : Nat) (flag : Prop) : Prop :=
  KeepsRegsBut [x, vF] s t ∧
  (x ≠ vF ∨ s.config.flagOrder = .flagThenResult → (t.getV x).toNat = res % 256) ∧
  (x ≠ vF ∨ s.config.flagOrder = .resultThenFlag → FlagIs t flag)

/-- The fault entry of R302: the three fault registers are written with the code, the pc and the latched
word, and every other part of the state keeps its value. -/
def FaultTaken (s t : State) (code : Nat) : Prop :=
  t.faultCode.toNat = code ∧ t.faultPC = s.pc ∧ t.faultOpcode = s.opcode ∧ KeepsAllBut [.fault] s t

/-- The trace of a skipped unknown word (R304). -/
def SkipTraced (s t : State) : Prop :=
  t.unkCount.toNat = min (s.unkCount.toNat + 1) 0xFFFF ∧ t.unkLastPC = s.pc ∧
  t.unkLastOpcode = s.opcode ∧ PcIs t (s.pc.toNat + 2) ∧ KeepsAllBut [.trace, .pc] s t

/-! ### The sprite a DRW draws, pixel by pixel -/

/-- That a 1 bit of the sprite of n rows at I lands on the pixel (px, py): the bit in row r and column
c of the sprite belongs to column V[x] mod 64 + c and row V[y] mod 32 + r of the screen (R101, R102),
which under `wrap` are taken mod 64 and mod 32 (R103). -/
def SpriteBitLands (s : State) (x y n : Nibble) (px : Fin 64) (py : Fin 32) : Prop :=
  ∃ r c : Nat, r < n.toNat ∧ c < 8 ∧ (s.readMem (s.index.toNat + r)).getLsbD (7 - c) = true ∧
    match s.config.spriteEdge with
    | .clip => (s.getV x).toNat % 64 + c = px.val ∧ (s.getV y).toNat % 32 + r = py.val
    | .wrap => ((s.getV x).toNat % 64 + c) % 64 = px.val ∧ ((s.getV y).toNat % 32 + r) % 32 = py.val

end Sys2Proof.Machine
end

