-- ==== Sys2Proof/Certificates/Slice0/Obligations.lean ====
section
/-! DEFINITION. The statements for the provers. Each docstring names the rules of spec/ it formalises; a
statement that rests on a decision of the spec (D<n>) or on a log entry says so. Three decisions stand
behind many of them (log 14): pc is stored mod 4096 (D3; every `PcIs`), an access through I is mod 4096
(D2; every `addrI`), and what a rule names no write to is unchanged (D28; every `Keeps…But`). -/

open Sys2Proof Sys2Proof.Machine

/-! ### Encoding -/

/-- Nine words written out from the patterns of R84 decode to their instructions: the source's own examples
6005, 6103, 8014 and 00EE, and five more. The tenth, 01E0, is no row of the map and is
refused (R85, R86; D16). The patterns but the source's are the spec's general knowledge (GK1, log 10). -/
def Obligations.ExampleWordsDecode : Prop :=
  decodeWord 0x6005 = .ok (.ldImm 0x0 0x05) ∧ decodeWord 0x6103 = .ok (.ldImm 0x1 0x03) ∧
  decodeWord 0x8014 = .ok (.addReg 0x0 0x1) ∧ decodeWord 0x00EE = .ok .ret ∧
  decodeWord 0x00E0 = .ok .cls ∧ decodeWord 0x2ABC = .ok (.call 0xABC) ∧
  decodeWord 0xD345 = .ok (.drw 0x3 0x4 0x5) ∧ decodeWord 0xE59E = .ok (.skp 0x5) ∧
  decodeWord 0xF265 = .ok (.ldVxMem 0x2) ∧ decodeWord 0x01E0 = .error .unknown0

/-- Decode and encode agree: the bytes of every instruction, followed by any bytes, decode to that
instruction with every operand at its value, and leave the bytes that follow (R81, R84, R87). -/
def Obligations.DecodeOfEncode : Prop :=
  ∀ (i : Instr) (rest : List Byte), decode (encodeBytes i ++ rest) = .ok (i, rest)

/-- A word has one meaning: a word that decodes to an instruction is that instruction's word (R84,
R86). -/
def Obligations.EncodeOfDecode : Prop :=
  ∀ (w : Word) (i : Instr), decodeWord w = .ok i → encode i = w

/-- The decoder of R83 and the opcode map of R84 agree: a word that decodes fits the mask and match of
its instruction's row and of no other row, and a word that fits some row decodes. The row 8xy7 is among them
in every configuration: this decoder reads it whatever HAS_SUBN is, and the parameter is applied after it,
as UnknownWordsAreExactlyTheListed says (log 3, DEDUCED). The patterns are the spec's general knowledge
(GK1, log 10). -/
def Obligations.DecoderSelectsTheOneRow : Prop :=
  ∀ w : Word,
    (∀ i, decodeWord w = .ok i →
      w &&& i.row.mask = i.row.value ∧ ∀ j : Instr, w &&& j.row.mask = j.row.value → j.row = i.row) ∧
    (∀ j : Instr, w &&& j.row.mask = j.row.value → ∃ i, decodeWord w = .ok i ∧ i.row = j.row)

/-- The unknown words are exactly those R85 lists, for either value of HAS_SUBN (D11, D16). -/
def Obligations.UnknownWordsAreExactlyTheListed : Prop :=
  ∀ (cfg : Config) (w : Word), (¬ ∃ i, decodeFor cfg w = .ok i) ↔ UnknownWord cfg w

/-! ### The step -/

/-- The fetch reads the bytes at pc and pc + 1, each address mod 4096, the first in bits 15:8, into the
opcode latch, and changes nothing else (R62, R80; the wrap is D2). -/
def Obligations.FetchIsBigEndianAndWraps : Prop :=
  ∀ s : State,
    s.fetched.opcode.toNat =
      (s.readMem (s.pc.toNat % 4096)).toNat * 256 + (s.readMem ((s.pc.toNat + 1) % 4096)).toNat ∧
    KeepsAllBut [.latch] s s.fetched

/-- A step runs the decoded instruction: where the CORE is not halted and the bytes at pc and pc + 1
decode to an instruction, the step is that instruction's meaning at the state whose latch holds the
word. Nothing is added around it: each instruction's rule writes pc itself (R80). -/
def Obligations.StepRunsTheDecodedInstruction : Prop :=
  ∀ (s : State) (i : Instr) (rest : List Byte), s.faultCode = 0#8 →
    decode [s.readMem s.pc.toNat, s.readMem (s.pc.toNat + 1)] = .ok (i, rest) →
    step s = exec i (s.latch (s.readMem s.pc.toNat ++ s.readMem (s.pc.toNat + 1)))

/-- A step runs the encoded instruction: where the two bytes of an instruction's word stand at pc, the
step is that instruction's meaning, its word in the latch (R80, R84). -/
def Obligations.StepRunsTheEncodedInstruction : Prop :=
  ∀ (s : State) (i : Instr), s.faultCode = 0#8 →
    s.readMem s.pc.toNat = highByte (encode i) → s.readMem (s.pc.toNat + 1) = lowByte (encode i) →
    step s = exec i (s.latch (encode i))

/-- A halted CORE takes no step: nothing changes, the opcode latch included (R80, R302; D20). -/
def Obligations.HaltedStepChangesNothing : Prop :=
  ∀ s : State, s.faultCode ≠ 0#8 → step s = .next s

/-- An unknown word faults UnknownOpcode under the policy `fault` and is traced and skipped under
`skip`; nothing else changes but the opcode latch, which receives the word (R304; D7, D11). -/
def Obligations.UnknownWordFaultsOrIsSkipped : Prop :=
  ∀ s : State, s.faultCode = 0#8 → UnknownWord s.config s.fetchWord →
    ∃ t, step s = .next t ∧
      (s.config.unknownOpcodePolicy = .fault → FaultTaken (s.latch s.fetchWord) t 0x01) ∧
      (s.config.unknownOpcodePolicy = .skip → SkipTraced (s.latch s.fetchWord) t)

/-! ### The invariant -/

/-- The reset state of every configuration meets the invariant, and State.reset is the reset state of the
default configuration (R400, R401; the defaults are R7's, log 2). -/
def Obligations.ResetMeetsTheInvariant : Prop :=
  (∀ cfg : Config, StateInv (State.resetWith cfg)) ∧ State.reset = State.resetWith defaultConfig

/-- Every step keeps the invariant: canonical memory, pc in 0x000-0xFFF (D3), sp in 0..16 (D6), stack
entries below 4096, FAULT_CODE among its five values, the fault registers consistent with it (D20), and
the trace empty under the policy `fault` (D7). -/
def Obligations.StepKeepsTheInvariant : Prop :=
  ∀ s t : State, StateInv s → step s = .next t → StateInv t

/-- Every host event keeps the invariant too: TICK, KEYS, LOAD, RESET, and a byte lined up on the random
input (R320, R325, R403, R400; log 4, 5, 6). -/
def Obligations.HostEventsKeepTheInvariant : Prop :=
  ∀ s : State, StateInv s →
    StateInv s.tick ∧ (∀ k, StateInv (s.setKeys k)) ∧ (∀ image, StateInv (s.load image)) ∧ StateInv s.resetEvent ∧
    (∀ b, StateInv (s.supplyRandom b))

/-- The CORE is never stuck: in every state a run of events reaches, a STEP answers a next state, so that
faults are the spec's halted states and nothing else (R302, R333; D20). -/
def Obligations.ReachableStatesAlwaysStep : Prop :=
  ∀ s : State, Reachable s → ∃ t, step s = .next t ∧ Reachable t

/-- The model stops of its own only where sp names no stack entry, a state no run reaches, and no
instruction is refused (R33; log 8). -/
def Obligations.ModelStopsOnlyBeyondTheStack : Prop :=
  ∀ (i : Instr) (s : State),
    (∀ r, exec i s = .fault r → 16 < s.sp.toNat ∧ (i = .ret ∨ ∃ nnn, i = .call nnn)) ∧
    (∀ r, exec i s ≠ .refused r)

/-! ### Rules over every instruction -/

/-- The writers of each part of the state: no instruction writes a part that the spec does not name it
for (R11, R21, R27, R30, R32, R35, R37, R39-R43, R60; D28). The configuration has
no writer (log 1) and Cxkk is the one to use up the random input (log 4). -/
def Obligations.InstructionsWriteOnlyTheirParts : Prop :=
  ∀ (i : Instr) (s t : State), exec i s = .next t → KeepsAllBut (writableParts s.config i) s t

/-- The writers of the registers: a register R21 does not list for the instruction keeps its value. -/
def Obligations.RegistersAreWrittenOnlyAsListed : Prop :=
  ∀ (i : Instr) (s t : State) (r : Nibble), exec i s = .next t → ¬ WritesReg s r i →
    t.getV r = s.getV r

/-- The next pc of every instruction is R27's, mod 4096 (R26, D3). -/
def Obligations.NextPcIsTheTables : Prop :=
  ∀ (i : Instr) (s t : State), s.pc.toNat < 4096 → exec i s = .next t → PcIs t (nextPc s i)

/-- An instruction raises a fault exactly under R301's conditions, with R301's code, and then R302's
entry is all it does; no other condition raises one (D6, D7, D15, D20). -/
def Obligations.FaultsAreExactlyTheListed : Prop :=
  ∀ (i : Instr) (s t : State), exec i s = .next t →
    (raisedBy s i = some .unknownOpcode → FaultTaken s t 0x01) ∧
    (raisedBy s i = some .stackOverflow → FaultTaken s t 0x02) ∧
    (raisedBy s i = some .stackUnderflow → FaultTaken s t 0x03) ∧
    (raisedBy s i = some .keyIndexRange → FaultTaken s t 0x04) ∧
    (raisedBy s i = none → Part.same s t .fault)

/-- No instruction reads ST: with another value in ST an instruction does the same, and leaves ST as it
found it unless it is Fx18 (R35). -/
def Obligations.NoInstructionReadsTheSoundTimer : Prop :=
  ∀ (i : Instr) (s t : State) (z : Byte), exec i s = .next t →
    ((∃ x, i = .ldSTVx x) → exec i (s.setST z) = .next t) ∧
    ((¬ ∃ x, i = .ldSTVx x) → exec i (s.setST z) = .next (t.setST z))

/-- The call stack is reached by CALL and RET alone. Every other instruction does the same whatever the
stack holds, and leaves it; CALL writes S[sp] and reads no entry; RET reads S[sp − 1] alone and clears
nothing (R32). -/
def Obligations.OnlyCallAndReturnReachTheStack : Prop :=
  ∀ (i : Instr) (s t : State) (z : Vector Word stackDepth), exec i s = .next t →
    (((∃ nnn, i = .call nnn) ∧
        ∃ z', exec i { s with stack := z } = .next { t with stack := z' } ∧
          ∀ k : Fin stackDepth,
            (k.val ≠ s.sp.toNat → t.stack.get k = s.stack.get k ∧ z'.get k = z.get k) ∧
            (k.val = s.sp.toNat → z'.get k = t.stack.get k)) ∨
      (i = .ret ∧ t.stack = s.stack ∧
        ((∀ k : Fin stackDepth, k.val + 1 = s.sp.toNat → z.get k = s.stack.get k) →
          exec i { s with stack := z } = .next { t with stack := z })) ∨
      ((¬ ∃ nnn, i = .call nnn) ∧ i ≠ .ret ∧ t.stack = s.stack ∧
        exec i { s with stack := z } = .next { t with stack := z }))

/-- The framebuffer is reached by 00E0 and Dxyn alone. 00E0 writes every pixel to 0, Dxyn XORs into it
bits that do not depend on it, and every other instruction does the same whatever it holds, and leaves
it. Of the events besides STEP only RESET writes it, and clears it (R37). -/
def Obligations.OnlyClearAndDrawReachTheScreen : Prop :=
  (∀ (i : Instr) (s t : State) (z : Framebuffer), exec i s = .next t →
    ((i = .cls ∧ (∀ x y, t.pixel x y = false) ∧ exec i (s.setFB z) = .next t) ∨
      ((∃ x y n, i = .drw x y n) ∧ ∃ u, exec i (s.setFB z) = .next u ∧
        ∀ px py, u.pixel px py = ((s.setFB z).pixel px py ^^ (t.pixel px py ^^ s.pixel px py))) ∨
      (i ≠ .cls ∧ (¬ ∃ x y n, i = .drw x y n) ∧ t.fb = s.fb ∧
        exec i (s.setFB z) = .next (t.setFB z)))) ∧
  (∀ (e : Event) (s t : State), e ≠ .step → applyEvent e s = .next t →
    ((e = .reset ∧ ∀ x y, t.pixel x y = false) ∨ (e ≠ .reset ∧ t.fb = s.fb)))

/-- The keypad is written by the KEYS event alone, and is 0 after a RESET; of the instructions Ex9E, ExA1
and Fx0A alone read it: every other one does the same whatever keys are pressed (R43). -/
def Obligations.OnlyTheKeysEventWritesTheKeypad : Prop :=
  (∀ (e : Event) (s t : State), applyEvent e s = .next t →
    ((∃ k, e = .keys k ∧ t.keys = k) ∨ (e = .reset ∧ t.keys = 0#16) ∨
      ((¬ ∃ k, e = .keys k) ∧ e ≠ .reset ∧ t.keys = s.keys))) ∧
  (∀ (i : Instr) (s t : State) (k : BitVec 16), exec i s = .next t →
    ((∃ x, i = .skp x ∨ i = .sknp x ∨ i = .ldVxK x) ∨ exec i (s.setKeys k) = .next (t.setKeys k)))

/-! ### Display -/

/-- CLS makes every pixel 0 and advances pc, and changes nothing else (R100). -/
def Obligations.ClearScreenResult : Prop :=
  ∀ s : State, ∃ t, exec .cls s = .next t ∧ (∀ x y, t.pixel x y = false) ∧ PcIs t (s.pc.toNat + 2) ∧
    KeepsAllBut [.screen, .pc] s t

/-- DRW flips exactly the pixels a 1 bit of the sprite lands on, under either SPRITE_EDGE, and sets VF to
1 exactly where one of them was on before, else to 0; no other register, and no byte of memory, changes
(R101-R105; D10, D25, D28, C3). -/
def Obligations.DrawFlipsTheSpritesPixels : Prop :=
  ∀ (s : State) (x y n : Nibble), ∃ t, exec (.drw x y n) s = .next t ∧
    (∀ px py, (SpriteBitLands s x y n px py → t.pixel px py = !s.pixel px py) ∧
      (¬ SpriteBitLands s x y n px py → t.pixel px py = s.pixel px py)) ∧
    FlagIs t (∃ px py, SpriteBitLands s x y n px py ∧ s.pixel px py = true) ∧
    PcIs t (s.pc.toNat + 2) ∧ KeepsRegsBut [vF] s t ∧ KeepsAllBut [.screen, .regs, .pc] s t

/-- Drawing one sprite twice at one place restores the framebuffer, and the second draw reports VF = 1
exactly when the first turned on at least one pixel (R104's consequence, derived from R101 and R103).
The place is the same unless the first draw's VF is a coordinate and moved it. -/
def Obligations.DrawTwiceRestoresTheScreen : Prop :=
  ∀ (s t : State) (x y n : Nibble), exec (.drw x y n) s = .next t →
    (t.getV x).toNat % 64 = (s.getV x).toNat % 64 → (t.getV y).toNat % 32 = (s.getV y).toNat % 32 →
    ∃ u, exec (.drw x y n) t = .next u ∧ (∀ px py, u.pixel px py = s.pixel px py) ∧
      FlagIs u (∃ px py, s.pixel px py = false ∧ t.pixel px py = true)

/-! ### Control transfer -/

/-- RET with sp = 0 raises StackUnderflow before any write; with sp in 1..16 it takes pc from S[sp − 1] and
lowers sp, every stack entry kept (R120). -/
def Obligations.ReturnPopsOrUnderflows : Prop :=
  ∀ s : State,
    (s.sp = 0#5 → ∃ t, exec .ret s = .next t ∧ FaultTaken s t 0x03) ∧
    (∀ k : Fin stackDepth, s.sp.toNat = k.val + 1 →
      ∃ t, exec .ret s = .next t ∧ PcIs t (s.stack.get k).toNat ∧ t.sp.toNat = k.val ∧
        KeepsAllBut [.sp, .pc] s t)

/-- JP takes pc to nnn, odd or even (R121), and changes nothing else (the frame of R11; D28, log 14). -/
def Obligations.JumpGoesToTheAddress : Prop :=
  ∀ (s : State) (nnn : Addr12), ∃ t, exec (.jp nnn) s = .next t ∧ t.pc.toNat = nnn.toNat ∧
    KeepsAllBut [.pc] s t

/-- CALL with sp in 0..15 stores pc + 2 mod 4096 in S[sp], raises sp and goes to nnn, the other entries
kept; with sp = 16 it raises StackOverflow before any write (R122; D5, D6, C4). -/
def Obligations.CallPushesOrOverflows : Prop :=
  ∀ (s : State) (nnn : Addr12),
    (s.sp = 16#5 → ∃ t, exec (.call nnn) s = .next t ∧ FaultTaken s t 0x02) ∧
    (∀ k : Fin stackDepth, s.sp.toNat = k.val →
      ∃ t, exec (.call nnn) s = .next t ∧ t.pc.toNat = nnn.toNat ∧ t.sp.toNat = k.val + 1 ∧
        (t.stack.get k).toNat = (s.pc.toNat + 2) % 4096 ∧
        (∀ j, j ≠ k → t.stack.get j = s.stack.get j) ∧ KeepsAllBut [.stack, .sp, .pc] s t)

/-- A RET that follows a CALL resumes at the instruction after the CALL, with sp as before (R120, R122;
D5). -/
def Obligations.ReturnResumesAfterTheCall : Prop :=
  ∀ (s : State) (nnn : Addr12), s.sp.toNat < 16 →
    ∃ t u, exec (.call nnn) s = .next t ∧ exec .ret t = .next u ∧ PcIs u (s.pc.toNat + 2) ∧
      u.sp = s.sp ∧ KeepsAllBut [.stack, .pc] s u

/-- SE and SNE against an immediate skip by 4 or advance by 2, and change nothing else (R123, R124). -/
def Obligations.ImmediateSkipsAdvanceByFourOrTwo : Prop :=
  ∀ (s : State) (x : Nibble) (kk : Byte),
    (∃ t, exec (.seImm x kk) s = .next t ∧
      PcIs t (s.pc.toNat + if s.getV x = kk then 4 else 2) ∧ KeepsAllBut [.pc] s t) ∧
    (∃ t, exec (.sneImm x kk) s = .next t ∧
      PcIs t (s.pc.toNat + if s.getV x ≠ kk then 4 else 2) ∧ KeepsAllBut [.pc] s t)

/-- SE and SNE against a register, likewise; with x = y, SE always and SNE never skips (R125, R126;
D16). -/
def Obligations.RegisterSkipsAdvanceByFourOrTwo : Prop :=
  ∀ (s : State) (x y : Nibble),
    (∃ t, exec (.seReg x y) s = .next t ∧
      PcIs t (s.pc.toNat + if s.getV x = s.getV y then 4 else 2) ∧ KeepsAllBut [.pc] s t) ∧
    (∃ t, exec (.sneReg x y) s = .next t ∧
      PcIs t (s.pc.toNat + if s.getV x ≠ s.getV y then 4 else 2) ∧ KeepsAllBut [.pc] s t)

/-- Bnnn goes to nnn + V0 mod 4096, always V0 (R127; D3). -/
def Obligations.OffsetJumpAddsV0 : Prop :=
  ∀ (s : State) (nnn : Addr12), ∃ t, exec (.jpV0 nnn) s = .next t ∧
    PcIs t (nnn.toNat + (s.getV 0#4).toNat) ∧ KeepsAllBut [.pc] s t

/-! ### Register arithmetic and logic -/

/-- 6xkk puts kk, and 8xy0 puts V[y], in V[x]; no other register changes, VF included unless x = F (R152,
R154). -/
def Obligations.LoadsOfImmediateAndRegister : Prop :=
  (∀ (s : State) (x : Nibble) (kk : Byte), ∃ t, exec (.ldImm x kk) s = .next t ∧ t.getV x = kk ∧
    PcIs t (s.pc.toNat + 2) ∧ KeepsRegsBut [x] s t ∧ KeepsAllBut [.regs, .pc] s t) ∧
  (∀ (s : State) (x y : Nibble), ∃ t, exec (.ldReg x y) s = .next t ∧ t.getV x = s.getV y ∧
    PcIs t (s.pc.toNat + 2) ∧ KeepsRegsBut [x] s t ∧ KeepsAllBut [.regs, .pc] s t)

/-- 7xkk adds kk to V[x] mod 256 and sets no flag (R153). -/
def Obligations.AddImmediateWrapsWithoutFlag : Prop :=
  ∀ (s : State) (x : Nibble) (kk : Byte), ∃ t, exec (.addImm x kk) s = .next t ∧
    (t.getV x).toNat = ((s.getV x).toNat + kk.toNat) % 256 ∧
    PcIs t (s.pc.toNat + 2) ∧ KeepsRegsBut [x] s t ∧ KeepsAllBut [.regs, .pc] s t

/-- OR, AND and XOR combine V[x] and V[y] bit by bit into V[x]; VF is no flag of theirs (R155-R157;
D19). -/
def Obligations.LogicWorksBitByBitWithoutFlag : Prop :=
  ∀ (s : State) (x y : Nibble),
    (∃ t, exec (.orReg x y) s = .next t ∧
      (∀ b < 8, (t.getV x).getLsbD b = ((s.getV x).getLsbD b || (s.getV y).getLsbD b)) ∧
      PcIs t (s.pc.toNat + 2) ∧ KeepsRegsBut [x] s t ∧ KeepsAllBut [.regs, .pc] s t) ∧
    (∃ t, exec (.andReg x y) s = .next t ∧
      (∀ b < 8, (t.getV x).getLsbD b = ((s.getV x).getLsbD b && (s.getV y).getLsbD b)) ∧
      PcIs t (s.pc.toNat + 2) ∧ KeepsRegsBut [x] s t ∧ KeepsAllBut [.regs, .pc] s t) ∧
    (∃ t, exec (.xorReg x y) s = .next t ∧
      (∀ b < 8, (t.getV x).getLsbD b = ((s.getV x).getLsbD b ^^ (s.getV y).getLsbD b)) ∧
      PcIs t (s.pc.toNat + 2) ∧ KeepsRegsBut [x] s t ∧ KeepsAllBut [.regs, .pc] s t)

/-- 8xy4: V[x] gets the sum mod 256 and VF the carry; where x = F, FLAG_ORDER says which (R158, R151, R159;
D8, C5). -/
def Obligations.AddRegisterSetsCarry : Prop :=
  ∀ (s : State) (x y : Nibble), ∃ t, exec (.addReg x y) s = .next t ∧
    ResultAndFlag s t x ((s.getV x).toNat + (s.getV y).toNat)
      ((s.getV x).toNat + (s.getV y).toNat > 255) ∧
    PcIs t (s.pc.toNat + 2) ∧ KeepsAllBut [.regs, .pc] s t

/-- 8xy5: V[x] gets V[x] − V[y] mod 256 and VF is 1 exactly when no borrow occurs (R160, R151; D8). -/
def Obligations.SubtractSetsNotBorrow : Prop :=
  ∀ (s : State) (x y : Nibble), ∃ t, exec (.sub x y) s = .next t ∧
    ResultAndFlag s t x ((s.getV x).toNat + 256 - (s.getV y).toNat)
      ((s.getV x).toNat ≥ (s.getV y).toNat) ∧
    PcIs t (s.pc.toNat + 2) ∧ KeepsAllBut [.regs, .pc] s t

/-- 8xy7 where HAS_SUBN: V[x] gets V[y] − V[x] mod 256 and VF is 1 exactly when no borrow occurs (R168,
R151; D11, GK4). -/
def Obligations.ReverseSubtractSetsNotBorrow : Prop :=
  ∀ (s : State) (x y : Nibble), s.config.hasSubn = true → ∃ t, exec (.subn x y) s = .next t ∧
    ResultAndFlag s t x ((s.getV y).toNat + 256 - (s.getV x).toNat)
      ((s.getV y).toNat ≥ (s.getV x).toNat) ∧
    PcIs t (s.pc.toNat + 2) ∧ KeepsAllBut [.regs, .pc] s t

/-- 8xy7 where HAS_SUBN is false is an unknown opcode: a fault or a traced skip (R168, R304; D7, D11,
log 3). -/
def Obligations.ReverseSubtractAbsentIsUnknown : Prop :=
  ∀ (s : State) (x y : Nibble), s.config.hasSubn = false → ∃ t, exec (.subn x y) s = .next t ∧
    (s.config.unknownOpcodePolicy = .fault → FaultTaken s t 0x01) ∧
    (s.config.unknownOpcodePolicy = .skip → SkipTraced s t)

/-- 8xy6 halves V[x] and 8xyE doubles it mod 256, VF gets the bit shifted out, and y is ignored (R162,
R164, R151; D8, D12). -/
def Obligations.ShiftsMoveTheEndBitToVF : Prop :=
  ∀ (s : State) (x y : Nibble),
    (∃ t, exec (.shr x y) s = .next t ∧
      ResultAndFlag s t x ((s.getV x).toNat / 2) ((s.getV x).toNat % 2 = 1) ∧
      PcIs t (s.pc.toNat + 2) ∧ KeepsAllBut [.regs, .pc] s t) ∧
    (∃ t, exec (.shl x y) s = .next t ∧
      ResultAndFlag s t x ((s.getV x).toNat * 2) ((s.getV x).toNat ≥ 128) ∧
      PcIs t (s.pc.toNat + 2) ∧ KeepsAllBut [.regs, .pc] s t)

/-! ### Index register and memory -/

/-- Annn puts nnn in I, bits 15:12 clear, and changes nothing else (R180). -/
def Obligations.LoadIndexTakesTheAddress : Prop :=
  ∀ (s : State) (nnn : Addr12), ∃ t, exec (.ldI nnn) s = .next t ∧ t.index.toNat = nnn.toNat ∧
    PcIs t (s.pc.toNat + 2) ∧ KeepsAllBut [.index, .pc] s t

/-- Fx1E adds V[x] to I mod 65536; with ADD_I_SETS_VF, VF is 1 exactly when the exact sum is above 0x0FFF,
and without it no register changes (R181, R182; D4, D9, GK5). -/
def Obligations.AddIndexWrapsAtSixteenBits : Prop :=
  ∀ (s : State) (x : Nibble), ∃ t, exec (.addI x) s = .next t ∧
    t.index.toNat = (s.index.toNat + (s.getV x).toNat) % 65536 ∧
    (s.config.addISetsVF = true →
      FlagIs t (s.index.toNat + (s.getV x).toNat > 0x0FFF) ∧ KeepsRegsBut [vF] s t) ∧
    (s.config.addISetsVF = false → KeepsRegsBut [] s t) ∧
    PcIs t (s.pc.toNat + 2) ∧ KeepsAllBut [.index, .regs, .pc] s t

/-- Fx29 puts V[x] × 5 in I, with no masking (R184; D14). -/
def Obligations.LoadGlyphAddressTimesFive : Prop :=
  ∀ (s : State) (x : Nibble), ∃ t, exec (.ldF x) s = .next t ∧
    t.index.toNat = (s.getV x).toNat * 5 ∧ PcIs t (s.pc.toNat + 2) ∧ KeepsAllBut [.index, .pc] s t

/-- Fx33 stores the hundreds, tens and units of V[x] at I, I + 1 and I + 2, each address mod 4096; every
other byte, I and all else is unchanged (R186). -/
def Obligations.BcdStoresThreeDigits : Prop :=
  ∀ (s : State) (x : Nibble), ∃ t, exec (.ldB x) s = .next t ∧
    (t.readMem (s.addrI 0)).toNat = (s.getV x).toNat / 100 ∧
    (t.readMem (s.addrI 1)).toNat = (s.getV x).toNat / 10 % 10 ∧
    (t.readMem (s.addrI 2)).toNat = (s.getV x).toNat % 10 ∧
    (∀ a, (∀ k < 3, a % 4096 ≠ s.addrI k) → t.readMem a = s.readMem a) ∧
    PcIs t (s.pc.toNat + 2) ∧ KeepsAllBut [.memory, .pc] s t

/-- Fx55 stores V0..Vx at I, I + 1, …, I + x, each address mod 4096; every other byte, I and all else is
unchanged (R188; D13). -/
def Obligations.BlockStoreStoresV0ToVx : Prop :=
  ∀ (s : State) (x : Nibble), ∃ t, exec (.ldMemVx x) s = .next t ∧
    (∀ r : Nibble, r.toNat ≤ x.toNat → t.readMem (s.addrI r.toNat) = s.getV r) ∧
    (∀ a, (∀ k ≤ x.toNat, a % 4096 ≠ s.addrI k) → t.readMem a = s.readMem a) ∧
    PcIs t (s.pc.toNat + 2) ∧ KeepsAllBut [.memory, .pc] s t

/-- Fx65 loads V0..Vx from I, I + 1, …, I + x, each address mod 4096; the registers above x, I and all else
are unchanged (R190; D13). -/
def Obligations.BlockLoadLoadsV0ToVx : Prop :=
  ∀ (s : State) (x : Nibble), ∃ t, exec (.ldVxMem x) s = .next t ∧
    (∀ r : Nibble, r.toNat ≤ x.toNat → t.getV r = s.readMem (s.addrI r.toNat)) ∧
    (∀ r : Nibble, x.toNat < r.toNat → t.getV r = s.getV r) ∧
    PcIs t (s.pc.toNat + 2) ∧ KeepsAllBut [.regs, .pc] s t

/-- A block load reads back what a block store of the same registers at the same I stored, whatever the
registers held in between (R188, R190). -/
def Obligations.BlockLoadReadsBackTheStore : Prop :=
  ∀ (s : State) (x : Nibble), ∃ t, exec (.ldMemVx x) s = .next t ∧
    ∀ t' : State, t'.index = t.index → (∀ a, t'.readMem a = t.readMem a) →
      ∃ u, exec (.ldVxMem x) t' = .next u ∧ ∀ r : Nibble, r.toNat ≤ x.toNat → u.getV r = s.getV r

/-! ### Random, keys and timers -/

/-- Cxkk puts the byte on the random input, masked by kk, in V[x] and uses the byte up; and every byte is
admitted as the draw (R13, R200; D26, log 4). -/
def Obligations.RandomMasksTheDraw : Prop :=
  (∀ (s : State) (x : Nibble) (kk : Byte), ∃ t, exec (.rnd x kk) s = .next t ∧
    (∀ b < 8, (t.getV x).getLsbD b = (s.randByte.getLsbD b && kk.getLsbD b)) ∧
    t.randomInput = s.randomInput.tail ∧ t.randomCount = s.randomCount + 1 ∧
    PcIs t (s.pc.toNat + 2) ∧ KeepsRegsBut [x] s t ∧ KeepsAllBut [.regs, .random, .pc] s t) ∧
  (∀ (s : State) (x : Nibble) (b : Byte), ∃ s' t, KeepsAllBut [.random] s s' ∧
    exec (.rnd x 0xFF#8) s' = .next t ∧ t.getV x = b)

/-- Ex9E skips where key V[x] is pressed and ExA1 where it is not, for V[x] up to 0x0F; nothing else
changes (R202, R204; D15). -/
def Obligations.KeySkipsFollowTheKeypad : Prop :=
  ∀ (s : State) (x : Nibble), (s.getV x).toNat ≤ 0x0F →
    (∃ t, exec (.skp x) s = .next t ∧
      PcIs t (s.pc.toNat + if s.keys.getLsbD (s.getV x).toNat = true then 4 else 2) ∧
      KeepsAllBut [.pc] s t) ∧
    (∃ t, exec (.sknp x) s = .next t ∧
      PcIs t (s.pc.toNat + if s.keys.getLsbD (s.getV x).toNat = false then 4 else 2) ∧
      KeepsAllBut [.pc] s t)

/-- Ex9E and ExA1 with V[x] above 0x0F raise KeyIndexRange before any write (R305; D15). -/
def Obligations.KeySkipsFaultBeyondTheKeypad : Prop :=
  ∀ (s : State) (x : Nibble), (s.getV x).toNat > 0x0F →
    (∃ t, exec (.skp x) s = .next t ∧ FaultTaken s t 0x04) ∧
    (∃ t, exec (.sknp x) s = .next t ∧ FaultTaken s t 0x04)

/-- Fx07 copies DT to V[x], Fx15 copies V[x] to DT, Fx18 copies V[x] to ST, and nothing else changes (R206,
R208, R210). -/
def Obligations.TimerMovesCopyTheByte : Prop :=
  ∀ (s : State) (x : Nibble),
    (∃ t, exec (.ldVxDT x) s = .next t ∧ t.getV x = s.dt ∧ PcIs t (s.pc.toNat + 2) ∧
      KeepsRegsBut [x] s t ∧ KeepsAllBut [.regs, .pc] s t) ∧
    (∃ t, exec (.ldDTVx x) s = .next t ∧ t.dt = s.getV x ∧ PcIs t (s.pc.toNat + 2) ∧
      KeepsAllBut [.dt, .pc] s t) ∧
    (∃ t, exec (.ldSTVx x) s = .next t ∧ t.st = s.getV x ∧ PcIs t (s.pc.toNat + 2) ∧
      KeepsAllBut [.st, .pc] s t)

/-- Fx0A stores the lowest pressed key in V[x] and advances; with no key pressed it changes nothing at
all (R212; D23). -/
def Obligations.WaitForKeyStoresTheLowestKey : Prop :=
  ∀ (s : State) (x : Nibble),
    (∀ k < 16, s.keys.getLsbD k = true → (∀ j < k, s.keys.getLsbD j = false) →
      ∃ t, exec (.ldVxK x) s = .next t ∧ (t.getV x).toNat = k ∧ PcIs t (s.pc.toNat + 2) ∧
        KeepsRegsBut [x] s t ∧ KeepsAllBut [.regs, .pc] s t) ∧
    (s.keys = 0#16 → exec (.ldVxK x) s = .next s)

/-- However many STEPs a waiting Fx0A is given, nothing changes but the opcode latch; the STEP after a key
is pressed stores that key and advances (R214, R325). -/
def Obligations.WaitForKeyWaitsAnyNumberOfSteps : Prop :=
  ∀ (s : State) (x : Nibble) (n : Nat), s.faultCode = 0#8 → s.fetchWord = encode (.ldVxK x) → s.keys = 0#16 →
    ∃ t, runEvents (List.replicate n .step) s = .next t ∧ KeepsAllBut [.latch] s t ∧
      ∀ k < 16, ∃ u, step (t.setKeys (BitVec.twoPow 16 k)) = .next u ∧ (u.getV x).toNat = k ∧
        PcIs u (s.pc.toNat + 2)

/-! ### Host events and reset -/

/-- A TICK lowers each timer by 1 unless it is 0, independently, and changes nothing else, halted or not
(R320; D22). -/
def Obligations.TickLowersBothTimers : Prop :=
  ∀ s : State, ∃ t, applyEvent .tick s = .next t ∧ t.dt.toNat = s.dt.toNat - 1 ∧
    t.st.toNat = s.st.toNat - 1 ∧ KeepsAllBut [.dt, .st] s t

/-- KEYS(k) replaces the state of all 16 keys by the bits of k and changes nothing else (R325; D22). -/
def Obligations.KeysEventReplacesTheKeypad : Prop :=
  ∀ (s : State) (k : BitVec 16), ∃ t, applyEvent (.keys k) s = .next t ∧
    (∀ i < 16, t.key i = k.getLsbD i) ∧ KeepsAllBut [.keys] s t

/-- LOAD of at most 3584 bytes puts the image at 0x200 and changes nothing else; a larger image changes no
state (R403, R404; D31). -/
def Obligations.LoadPlacesTheImage : Prop :=
  ∀ (s : State) (image : List Byte),
    (image.length ≤ 3584 → ∃ t, applyEvent (.load image) s = .next t ∧
      (∀ k, (h : k < image.length) → t.readMem (0x200 + k) = image[k]) ∧
      (∀ a < 4096, a < 0x200 ∨ 0x200 + image.length ≤ a → t.readMem a = s.readMem a) ∧
      KeepsAllBut [.memory] s t) ∧
    (image.length > 3584 → applyEvent (.load image) s = .next s)

/-- RESET leaves every register V and stack entry 0, I, sp and both timers 0, every pixel off and pc at
0x200, whatever the state was (R22, R29, R31, R34, R36, R38). -/
def Obligations.ResetZeroesTheMachine : Prop :=
  ∀ s : State, ∃ t, applyEvent .reset s = .next t ∧
    (∀ r, t.getV r = 0#8) ∧ t.pc = 0x200#16 ∧ t.index = 0#16 ∧ t.sp = 0#5 ∧
    (∀ k, t.stack.get k = 0#16) ∧ t.dt = 0#8 ∧ t.st = 0#8 ∧ ∀ x y, t.pixel x y = false

/-- RESET also clears the opcode latch, the fault and trace registers and the keypad, copies the
configuration's font to 0x000-0x04F and zeroes the rest of memory; the configuration and the random
input are kept (R39-R45, R400, R401; D20, D24, D29, log 5). -/
def Obligations.ResetClearsTheStatusAndFillsMemory : Prop :=
  ∀ s : State, ∃ t, applyEvent .reset s = .next t ∧
    t.opcode = 0#16 ∧ t.faultCode = 0#8 ∧ t.faultPC = 0#16 ∧ t.faultOpcode = 0#16 ∧
    t.unkCount = 0#16 ∧ t.unkLastPC = 0#16 ∧ t.unkLastOpcode = 0#16 ∧ (∀ k, t.key k = false) ∧
    (∀ k : Fin 80, t.readMem k.val = s.config.font.get k) ∧
    (∀ a, 80 ≤ a → a < 4096 → t.readMem a = 0#8) ∧ KeepsAllBut
      [.regs, .pc, .index, .sp, .stack, .dt, .st, .screen, .latch, .fault, .trace, .keys, .memory] s t
end

