-- ==== Sys2Proof/Laws/Decode.lean ====
section
/-! SUPPORT. The fields of the words the encoder makes, and the bytes of a word (spec 30_encoding.md
R62, R81). -/

namespace Sys2Proof

/-! ### A word of op and nnn -/

theorem toNat_wordOpNNN (op : Nibble) (nnn : Addr12) :
    (wordOpNNN op nnn).toNat = op.toNat * 4096 + nnn.toNat := by
  simp only [wordOpNNN, BitVec.toNat_append]
  rw [← Nat.shiftLeft_add_eq_or_of_lt nnn.isLt, Nat.shiftLeft_eq]

@[simp] theorem opField_wordOpNNN (op : Nibble) (nnn : Addr12) : opField (wordOpNNN op nnn) = op := by
  have := op.isLt; have := nnn.isLt
  apply BitVec.eq_of_toNat_eq
  simp only [opField, BitVec.extractLsb'_toNat, toNat_wordOpNNN, Nat.shiftRight_eq_div_pow]
  omega

@[simp] theorem nnnField_wordOpNNN (op : Nibble) (nnn : Addr12) : nnnField (wordOpNNN op nnn) = nnn := by
  have := nnn.isLt
  apply BitVec.eq_of_toNat_eq
  simp only [nnnField, BitVec.extractLsb'_toNat, toNat_wordOpNNN, Nat.shiftRight_eq_div_pow]
  omega

/-! ### A word of op, x and kk -/

theorem toNat_wordOpXKK (op x : Nibble) (kk : Byte) :
    (wordOpXKK op x kk).toNat = op.toNat * 4096 + x.toNat * 256 + kk.toNat := by
  have hx := x.isLt
  have hk := kk.isLt
  simp only [wordOpXKK, BitVec.toNat_append]
  rw [← Nat.shiftLeft_add_eq_or_of_lt hk, ← Nat.shiftLeft_add_eq_or_of_lt hx]
  simp only [Nat.shiftLeft_eq]
  omega

@[simp] theorem opField_wordOpXKK (op x : Nibble) (kk : Byte) : opField (wordOpXKK op x kk) = op := by
  have := op.isLt; have := x.isLt; have := kk.isLt
  apply BitVec.eq_of_toNat_eq
  simp only [opField, BitVec.extractLsb'_toNat, toNat_wordOpXKK, Nat.shiftRight_eq_div_pow]
  omega

@[simp] theorem xField_wordOpXKK (op x : Nibble) (kk : Byte) : xField (wordOpXKK op x kk) = x := by
  have := op.isLt; have := x.isLt; have := kk.isLt
  apply BitVec.eq_of_toNat_eq
  simp only [xField, BitVec.extractLsb'_toNat, toNat_wordOpXKK, Nat.shiftRight_eq_div_pow]
  omega

@[simp] theorem kkField_wordOpXKK (op x : Nibble) (kk : Byte) : kkField (wordOpXKK op x kk) = kk := by
  have := op.isLt; have := x.isLt; have := kk.isLt
  apply BitVec.eq_of_toNat_eq
  simp only [kkField, BitVec.extractLsb'_toNat, toNat_wordOpXKK, Nat.shiftRight_eq_div_pow]
  omega

/-! ### A word of op, x, y and n -/

theorem toNat_wordOpXYN (op x y n : Nibble) :
    (wordOpXYN op x y n).toNat = op.toNat * 4096 + x.toNat * 256 + y.toNat * 16 + n.toNat := by
  have hx := x.isLt; have hy := y.isLt; have hn := n.isLt
  simp only [wordOpXYN, BitVec.toNat_append]
  rw [← Nat.shiftLeft_add_eq_or_of_lt hn, ← Nat.shiftLeft_add_eq_or_of_lt hy,
    ← Nat.shiftLeft_add_eq_or_of_lt hx]
  simp only [Nat.shiftLeft_eq]
  omega

@[simp] theorem opField_wordOpXYN (op x y n : Nibble) : opField (wordOpXYN op x y n) = op := by
  have := op.isLt; have := x.isLt; have := y.isLt; have := n.isLt
  apply BitVec.eq_of_toNat_eq
  simp only [opField, BitVec.extractLsb'_toNat, toNat_wordOpXYN, Nat.shiftRight_eq_div_pow]
  omega

@[simp] theorem xField_wordOpXYN (op x y n : Nibble) : xField (wordOpXYN op x y n) = x := by
  have := op.isLt; have := x.isLt; have := y.isLt; have := n.isLt
  apply BitVec.eq_of_toNat_eq
  simp only [xField, BitVec.extractLsb'_toNat, toNat_wordOpXYN, Nat.shiftRight_eq_div_pow]
  omega

@[simp] theorem yField_wordOpXYN (op x y n : Nibble) : yField (wordOpXYN op x y n) = y := by
  have := op.isLt; have := x.isLt; have := y.isLt; have := n.isLt
  apply BitVec.eq_of_toNat_eq
  simp only [yField, BitVec.extractLsb'_toNat, toNat_wordOpXYN, Nat.shiftRight_eq_div_pow]
  omega

@[simp] theorem nField_wordOpXYN (op x y n : Nibble) : nField (wordOpXYN op x y n) = n := by
  have := op.isLt; have := x.isLt; have := y.isLt; have := n.isLt
  apply BitVec.eq_of_toNat_eq
  simp only [nField, BitVec.extractLsb'_toNat, toNat_wordOpXYN, Nat.shiftRight_eq_div_pow]
  omega

/-! ### The bytes of a word (R62) -/

theorem toNat_wordOfBytes (hi lo : Byte) : (wordOfBytes hi lo).toNat = hi.toNat * 256 + lo.toNat := by
  have hl := lo.isLt
  simp only [wordOfBytes, BitVec.toNat_append]
  rw [← Nat.shiftLeft_add_eq_or_of_lt hl, Nat.shiftLeft_eq]

@[simp] theorem wordOfBytes_high_low (w : Word) : wordOfBytes (highByte w) (lowByte w) = w := by
  have := w.isLt
  apply BitVec.eq_of_toNat_eq
  rw [toNat_wordOfBytes]
  simp only [highByte, lowByte, BitVec.extractLsb'_toNat, Nat.shiftRight_eq_div_pow]
  omega

/-! ### A word is made of its fields -/

/-- The word is its four nibbles, from the top. -/
theorem word_of_nibbles (w : Word) : wordOpXYN (opField w) (xField w) (yField w) (nField w) = w := by
  have := w.isLt
  apply BitVec.eq_of_toNat_eq
  rw [toNat_wordOpXYN]
  simp only [opField, xField, yField, nField, BitVec.extractLsb'_toNat, Nat.shiftRight_eq_div_pow]
  omega

theorem word_of_op_x_kk (w : Word) : wordOpXKK (opField w) (xField w) (kkField w) = w := by
  have := w.isLt
  apply BitVec.eq_of_toNat_eq
  rw [toNat_wordOpXKK]
  simp only [opField, xField, kkField, BitVec.extractLsb'_toNat, Nat.shiftRight_eq_div_pow]
  omega

theorem word_of_op_nnn (w : Word) : wordOpNNN (opField w) (nnnField w) = w := by
  have := w.isLt
  apply BitVec.eq_of_toNat_eq
  rw [toNat_wordOpNNN]
  simp only [opField, nnnField, BitVec.extractLsb'_toNat, Nat.shiftRight_eq_div_pow]
  omega

/-! ### What decode answers -/

/-- Everything decode can answer on two bytes or more. -/
theorem decode_cons_cons (hi lo : Byte) (rest : List Byte) :
    decode (hi :: lo :: rest) =
      match decodeWord (wordOfBytes hi lo) with
      | .ok i => .ok (i, rest)
      | .error e => .error e := rfl

end Sys2Proof
end

