-- ==== Sys2Proof/Laws/State.lean ====
section
/-! SUPPORT. One lemma for each field of State under each named update, and for each reader of a part
the update does not touch, so that no later proof unfolds a record update. -/

namespace Sys2Proof.Machine

/-! `setV` -/

@[simp] theorem State.setV_v (s : State) (x : Nibble) (b : Byte) : (s.setV x b).v = s.v.set x.toNat b x.isLt := rfl
@[simp] theorem State.setV_index (s : State) (x : Nibble) (b : Byte) : (s.setV x b).index = s.index := rfl
@[simp] theorem State.setV_pc (s : State) (x : Nibble) (b : Byte) : (s.setV x b).pc = s.pc := rfl
@[simp] theorem State.setV_stack (s : State) (x : Nibble) (b : Byte) : (s.setV x b).stack = s.stack := rfl
@[simp] theorem State.setV_sp (s : State) (x : Nibble) (b : Byte) : (s.setV x b).sp = s.sp := rfl
@[simp] theorem State.setV_dt (s : State) (x : Nibble) (b : Byte) : (s.setV x b).dt = s.dt := rfl
@[simp] theorem State.setV_st (s : State) (x : Nibble) (b : Byte) : (s.setV x b).st = s.st := rfl
@[simp] theorem State.setV_fb (s : State) (x : Nibble) (b : Byte) : (s.setV x b).fb = s.fb := rfl
@[simp] theorem State.setV_opcode (s : State) (x : Nibble) (b : Byte) : (s.setV x b).opcode = s.opcode := rfl
@[simp] theorem State.setV_faultCode (s : State) (x : Nibble) (b : Byte) : (s.setV x b).faultCode = s.faultCode := rfl
@[simp] theorem State.setV_faultPC (s : State) (x : Nibble) (b : Byte) : (s.setV x b).faultPC = s.faultPC := rfl
@[simp] theorem State.setV_faultOpcode (s : State) (x : Nibble) (b : Byte) : (s.setV x b).faultOpcode = s.faultOpcode := rfl
@[simp] theorem State.setV_unkCount (s : State) (x : Nibble) (b : Byte) : (s.setV x b).unkCount = s.unkCount := rfl
@[simp] theorem State.setV_unkLastPC (s : State) (x : Nibble) (b : Byte) : (s.setV x b).unkLastPC = s.unkLastPC := rfl
@[simp] theorem State.setV_unkLastOpcode (s : State) (x : Nibble) (b : Byte) : (s.setV x b).unkLastOpcode = s.unkLastOpcode := rfl
@[simp] theorem State.setV_keys (s : State) (x : Nibble) (b : Byte) : (s.setV x b).keys = s.keys := rfl
@[simp] theorem State.setV_mem (s : State) (x : Nibble) (b : Byte) : (s.setV x b).mem = s.mem := rfl
@[simp] theorem State.setV_config (s : State) (x : Nibble) (b : Byte) : (s.setV x b).config = s.config := rfl
@[simp] theorem State.setV_randomInput (s : State) (x : Nibble) (b : Byte) : (s.setV x b).randomInput = s.randomInput := rfl
@[simp] theorem State.setV_randomCount (s : State) (x : Nibble) (b : Byte) : (s.setV x b).randomCount = s.randomCount := rfl
@[simp] theorem State.setV_readMem (s : State) (x : Nibble) (b : Byte) (q : Nat) : (s.setV x b).readMem q = s.readMem q := rfl
@[simp] theorem State.setV_pixel (s : State) (x : Nibble) (b : Byte) (px : Fin 64) (py : Fin 32) : (s.setV x b).pixel px py = s.pixel px py := rfl
@[simp] theorem State.setV_key (s : State) (x : Nibble) (b : Byte) (q : Nat) : (s.setV x b).key q = s.key q := rfl
@[simp] theorem State.setV_halted (s : State) (x : Nibble) (b : Byte) : (s.setV x b).halted = s.halted := rfl

/-! `setIndex` -/

@[simp] theorem State.setIndex_v (s : State) (n : Nat) : (s.setIndex n).v = s.v := rfl
@[simp] theorem State.setIndex_index (s : State) (n : Nat) : (s.setIndex n).index = BitVec.ofNat 16 n := rfl
@[simp] theorem State.setIndex_pc (s : State) (n : Nat) : (s.setIndex n).pc = s.pc := rfl
@[simp] theorem State.setIndex_stack (s : State) (n : Nat) : (s.setIndex n).stack = s.stack := rfl
@[simp] theorem State.setIndex_sp (s : State) (n : Nat) : (s.setIndex n).sp = s.sp := rfl
@[simp] theorem State.setIndex_dt (s : State) (n : Nat) : (s.setIndex n).dt = s.dt := rfl
@[simp] theorem State.setIndex_st (s : State) (n : Nat) : (s.setIndex n).st = s.st := rfl
@[simp] theorem State.setIndex_fb (s : State) (n : Nat) : (s.setIndex n).fb = s.fb := rfl
@[simp] theorem State.setIndex_opcode (s : State) (n : Nat) : (s.setIndex n).opcode = s.opcode := rfl
@[simp] theorem State.setIndex_faultCode (s : State) (n : Nat) : (s.setIndex n).faultCode = s.faultCode := rfl
@[simp] theorem State.setIndex_faultPC (s : State) (n : Nat) : (s.setIndex n).faultPC = s.faultPC := rfl
@[simp] theorem State.setIndex_faultOpcode (s : State) (n : Nat) : (s.setIndex n).faultOpcode = s.faultOpcode := rfl
@[simp] theorem State.setIndex_unkCount (s : State) (n : Nat) : (s.setIndex n).unkCount = s.unkCount := rfl
@[simp] theorem State.setIndex_unkLastPC (s : State) (n : Nat) : (s.setIndex n).unkLastPC = s.unkLastPC := rfl
@[simp] theorem State.setIndex_unkLastOpcode (s : State) (n : Nat) : (s.setIndex n).unkLastOpcode = s.unkLastOpcode := rfl
@[simp] theorem State.setIndex_keys (s : State) (n : Nat) : (s.setIndex n).keys = s.keys := rfl
@[simp] theorem State.setIndex_mem (s : State) (n : Nat) : (s.setIndex n).mem = s.mem := rfl
@[simp] theorem State.setIndex_config (s : State) (n : Nat) : (s.setIndex n).config = s.config := rfl
@[simp] theorem State.setIndex_randomInput (s : State) (n : Nat) : (s.setIndex n).randomInput = s.randomInput := rfl
@[simp] theorem State.setIndex_randomCount (s : State) (n : Nat) : (s.setIndex n).randomCount = s.randomCount := rfl
@[simp] theorem State.setIndex_getV (s : State) (n : Nat) (r : Nibble) : (s.setIndex n).getV r = s.getV r := rfl
@[simp] theorem State.setIndex_readMem (s : State) (n : Nat) (q : Nat) : (s.setIndex n).readMem q = s.readMem q := rfl
@[simp] theorem State.setIndex_pixel (s : State) (n : Nat) (px : Fin 64) (py : Fin 32) : (s.setIndex n).pixel px py = s.pixel px py := rfl
@[simp] theorem State.setIndex_key (s : State) (n : Nat) (q : Nat) : (s.setIndex n).key q = s.key q := rfl
@[simp] theorem State.setIndex_halted (s : State) (n : Nat) : (s.setIndex n).halted = s.halted := rfl

/-! `setDT` -/

@[simp] theorem State.setDT_v (s : State) (b : Byte) : (s.setDT b).v = s.v := rfl
@[simp] theorem State.setDT_index (s : State) (b : Byte) : (s.setDT b).index = s.index := rfl
@[simp] theorem State.setDT_pc (s : State) (b : Byte) : (s.setDT b).pc = s.pc := rfl
@[simp] theorem State.setDT_stack (s : State) (b : Byte) : (s.setDT b).stack = s.stack := rfl
@[simp] theorem State.setDT_sp (s : State) (b : Byte) : (s.setDT b).sp = s.sp := rfl
@[simp] theorem State.setDT_dt (s : State) (b : Byte) : (s.setDT b).dt = b := rfl
@[simp] theorem State.setDT_st (s : State) (b : Byte) : (s.setDT b).st = s.st := rfl
@[simp] theorem State.setDT_fb (s : State) (b : Byte) : (s.setDT b).fb = s.fb := rfl
@[simp] theorem State.setDT_opcode (s : State) (b : Byte) : (s.setDT b).opcode = s.opcode := rfl
@[simp] theorem State.setDT_faultCode (s : State) (b : Byte) : (s.setDT b).faultCode = s.faultCode := rfl
@[simp] theorem State.setDT_faultPC (s : State) (b : Byte) : (s.setDT b).faultPC = s.faultPC := rfl
@[simp] theorem State.setDT_faultOpcode (s : State) (b : Byte) : (s.setDT b).faultOpcode = s.faultOpcode := rfl
@[simp] theorem State.setDT_unkCount (s : State) (b : Byte) : (s.setDT b).unkCount = s.unkCount := rfl
@[simp] theorem State.setDT_unkLastPC (s : State) (b : Byte) : (s.setDT b).unkLastPC = s.unkLastPC := rfl
@[simp] theorem State.setDT_unkLastOpcode (s : State) (b : Byte) : (s.setDT b).unkLastOpcode = s.unkLastOpcode := rfl
@[simp] theorem State.setDT_keys (s : State) (b : Byte) : (s.setDT b).keys = s.keys := rfl
@[simp] theorem State.setDT_mem (s : State) (b : Byte) : (s.setDT b).mem = s.mem := rfl
@[simp] theorem State.setDT_config (s : State) (b : Byte) : (s.setDT b).config = s.config := rfl
@[simp] theorem State.setDT_randomInput (s : State) (b : Byte) : (s.setDT b).randomInput = s.randomInput := rfl
@[simp] theorem State.setDT_randomCount (s : State) (b : Byte) : (s.setDT b).randomCount = s.randomCount := rfl
@[simp] theorem State.setDT_getV (s : State) (b : Byte) (r : Nibble) : (s.setDT b).getV r = s.getV r := rfl
@[simp] theorem State.setDT_readMem (s : State) (b : Byte) (q : Nat) : (s.setDT b).readMem q = s.readMem q := rfl
@[simp] theorem State.setDT_pixel (s : State) (b : Byte) (px : Fin 64) (py : Fin 32) : (s.setDT b).pixel px py = s.pixel px py := rfl
@[simp] theorem State.setDT_key (s : State) (b : Byte) (q : Nat) : (s.setDT b).key q = s.key q := rfl
@[simp] theorem State.setDT_halted (s : State) (b : Byte) : (s.setDT b).halted = s.halted := rfl

/-! `setST` -/

@[simp] theorem State.setST_v (s : State) (b : Byte) : (s.setST b).v = s.v := rfl
@[simp] theorem State.setST_index (s : State) (b : Byte) : (s.setST b).index = s.index := rfl
@[simp] theorem State.setST_pc (s : State) (b : Byte) : (s.setST b).pc = s.pc := rfl
@[simp] theorem State.setST_stack (s : State) (b : Byte) : (s.setST b).stack = s.stack := rfl
@[simp] theorem State.setST_sp (s : State) (b : Byte) : (s.setST b).sp = s.sp := rfl
@[simp] theorem State.setST_dt (s : State) (b : Byte) : (s.setST b).dt = s.dt := rfl
@[simp] theorem State.setST_st (s : State) (b : Byte) : (s.setST b).st = b := rfl
@[simp] theorem State.setST_fb (s : State) (b : Byte) : (s.setST b).fb = s.fb := rfl
@[simp] theorem State.setST_opcode (s : State) (b : Byte) : (s.setST b).opcode = s.opcode := rfl
@[simp] theorem State.setST_faultCode (s : State) (b : Byte) : (s.setST b).faultCode = s.faultCode := rfl
@[simp] theorem State.setST_faultPC (s : State) (b : Byte) : (s.setST b).faultPC = s.faultPC := rfl
@[simp] theorem State.setST_faultOpcode (s : State) (b : Byte) : (s.setST b).faultOpcode = s.faultOpcode := rfl
@[simp] theorem State.setST_unkCount (s : State) (b : Byte) : (s.setST b).unkCount = s.unkCount := rfl
@[simp] theorem State.setST_unkLastPC (s : State) (b : Byte) : (s.setST b).unkLastPC = s.unkLastPC := rfl
@[simp] theorem State.setST_unkLastOpcode (s : State) (b : Byte) : (s.setST b).unkLastOpcode = s.unkLastOpcode := rfl
@[simp] theorem State.setST_keys (s : State) (b : Byte) : (s.setST b).keys = s.keys := rfl
@[simp] theorem State.setST_mem (s : State) (b : Byte) : (s.setST b).mem = s.mem := rfl
@[simp] theorem State.setST_config (s : State) (b : Byte) : (s.setST b).config = s.config := rfl
@[simp] theorem State.setST_randomInput (s : State) (b : Byte) : (s.setST b).randomInput = s.randomInput := rfl
@[simp] theorem State.setST_randomCount (s : State) (b : Byte) : (s.setST b).randomCount = s.randomCount := rfl
@[simp] theorem State.setST_getV (s : State) (b : Byte) (r : Nibble) : (s.setST b).getV r = s.getV r := rfl
@[simp] theorem State.setST_readMem (s : State) (b : Byte) (q : Nat) : (s.setST b).readMem q = s.readMem q := rfl
@[simp] theorem State.setST_pixel (s : State) (b : Byte) (px : Fin 64) (py : Fin 32) : (s.setST b).pixel px py = s.pixel px py := rfl
@[simp] theorem State.setST_key (s : State) (b : Byte) (q : Nat) : (s.setST b).key q = s.key q := rfl
@[simp] theorem State.setST_halted (s : State) (b : Byte) : (s.setST b).halted = s.halted := rfl

/-! `latch` -/

@[simp] theorem State.latch_v (s : State) (w : Word) : (s.latch w).v = s.v := rfl
@[simp] theorem State.latch_index (s : State) (w : Word) : (s.latch w).index = s.index := rfl
@[simp] theorem State.latch_pc (s : State) (w : Word) : (s.latch w).pc = s.pc := rfl
@[simp] theorem State.latch_stack (s : State) (w : Word) : (s.latch w).stack = s.stack := rfl
@[simp] theorem State.latch_sp (s : State) (w : Word) : (s.latch w).sp = s.sp := rfl
@[simp] theorem State.latch_dt (s : State) (w : Word) : (s.latch w).dt = s.dt := rfl
@[simp] theorem State.latch_st (s : State) (w : Word) : (s.latch w).st = s.st := rfl
@[simp] theorem State.latch_fb (s : State) (w : Word) : (s.latch w).fb = s.fb := rfl
@[simp] theorem State.latch_opcode (s : State) (w : Word) : (s.latch w).opcode = w := rfl
@[simp] theorem State.latch_faultCode (s : State) (w : Word) : (s.latch w).faultCode = s.faultCode := rfl
@[simp] theorem State.latch_faultPC (s : State) (w : Word) : (s.latch w).faultPC = s.faultPC := rfl
@[simp] theorem State.latch_faultOpcode (s : State) (w : Word) : (s.latch w).faultOpcode = s.faultOpcode := rfl
@[simp] theorem State.latch_unkCount (s : State) (w : Word) : (s.latch w).unkCount = s.unkCount := rfl
@[simp] theorem State.latch_unkLastPC (s : State) (w : Word) : (s.latch w).unkLastPC = s.unkLastPC := rfl
@[simp] theorem State.latch_unkLastOpcode (s : State) (w : Word) : (s.latch w).unkLastOpcode = s.unkLastOpcode := rfl
@[simp] theorem State.latch_keys (s : State) (w : Word) : (s.latch w).keys = s.keys := rfl
@[simp] theorem State.latch_mem (s : State) (w : Word) : (s.latch w).mem = s.mem := rfl
@[simp] theorem State.latch_config (s : State) (w : Word) : (s.latch w).config = s.config := rfl
@[simp] theorem State.latch_randomInput (s : State) (w : Word) : (s.latch w).randomInput = s.randomInput := rfl
@[simp] theorem State.latch_randomCount (s : State) (w : Word) : (s.latch w).randomCount = s.randomCount := rfl
@[simp] theorem State.latch_getV (s : State) (w : Word) (r : Nibble) : (s.latch w).getV r = s.getV r := rfl
@[simp] theorem State.latch_readMem (s : State) (w : Word) (q : Nat) : (s.latch w).readMem q = s.readMem q := rfl
@[simp] theorem State.latch_pixel (s : State) (w : Word) (px : Fin 64) (py : Fin 32) : (s.latch w).pixel px py = s.pixel px py := rfl
@[simp] theorem State.latch_key (s : State) (w : Word) (q : Nat) : (s.latch w).key q = s.key q := rfl
@[simp] theorem State.latch_halted (s : State) (w : Word) : (s.latch w).halted = s.halted := rfl

/-! `jump` -/

@[simp] theorem State.jump_v (s : State) (n : Nat) : (s.jump n).v = s.v := rfl
@[simp] theorem State.jump_index (s : State) (n : Nat) : (s.jump n).index = s.index := rfl
@[simp] theorem State.jump_pc (s : State) (n : Nat) : (s.jump n).pc = BitVec.ofNat 16 (n % memSize) := rfl
@[simp] theorem State.jump_stack (s : State) (n : Nat) : (s.jump n).stack = s.stack := rfl
@[simp] theorem State.jump_sp (s : State) (n : Nat) : (s.jump n).sp = s.sp := rfl
@[simp] theorem State.jump_dt (s : State) (n : Nat) : (s.jump n).dt = s.dt := rfl
@[simp] theorem State.jump_st (s : State) (n : Nat) : (s.jump n).st = s.st := rfl
@[simp] theorem State.jump_fb (s : State) (n : Nat) : (s.jump n).fb = s.fb := rfl
@[simp] theorem State.jump_opcode (s : State) (n : Nat) : (s.jump n).opcode = s.opcode := rfl
@[simp] theorem State.jump_faultCode (s : State) (n : Nat) : (s.jump n).faultCode = s.faultCode := rfl
@[simp] theorem State.jump_faultPC (s : State) (n : Nat) : (s.jump n).faultPC = s.faultPC := rfl
@[simp] theorem State.jump_faultOpcode (s : State) (n : Nat) : (s.jump n).faultOpcode = s.faultOpcode := rfl
@[simp] theorem State.jump_unkCount (s : State) (n : Nat) : (s.jump n).unkCount = s.unkCount := rfl
@[simp] theorem State.jump_unkLastPC (s : State) (n : Nat) : (s.jump n).unkLastPC = s.unkLastPC := rfl
@[simp] theorem State.jump_unkLastOpcode (s : State) (n : Nat) : (s.jump n).unkLastOpcode = s.unkLastOpcode := rfl
@[simp] theorem State.jump_keys (s : State) (n : Nat) : (s.jump n).keys = s.keys := rfl
@[simp] theorem State.jump_mem (s : State) (n : Nat) : (s.jump n).mem = s.mem := rfl
@[simp] theorem State.jump_config (s : State) (n : Nat) : (s.jump n).config = s.config := rfl
@[simp] theorem State.jump_randomInput (s : State) (n : Nat) : (s.jump n).randomInput = s.randomInput := rfl
@[simp] theorem State.jump_randomCount (s : State) (n : Nat) : (s.jump n).randomCount = s.randomCount := rfl
@[simp] theorem State.jump_getV (s : State) (n : Nat) (r : Nibble) : (s.jump n).getV r = s.getV r := rfl
@[simp] theorem State.jump_readMem (s : State) (n : Nat) (q : Nat) : (s.jump n).readMem q = s.readMem q := rfl
@[simp] theorem State.jump_pixel (s : State) (n : Nat) (px : Fin 64) (py : Fin 32) : (s.jump n).pixel px py = s.pixel px py := rfl
@[simp] theorem State.jump_key (s : State) (n : Nat) (q : Nat) : (s.jump n).key q = s.key q := rfl
@[simp] theorem State.jump_halted (s : State) (n : Nat) : (s.jump n).halted = s.halted := rfl

/-! `advance` -/

@[simp] theorem State.advance_v (s : State) : (s.advance).v = s.v := rfl
@[simp] theorem State.advance_index (s : State) : (s.advance).index = s.index := rfl
@[simp] theorem State.advance_pc (s : State) : (s.advance).pc = BitVec.ofNat 16 ((s.pc.toNat + 2) % memSize) := rfl
@[simp] theorem State.advance_stack (s : State) : (s.advance).stack = s.stack := rfl
@[simp] theorem State.advance_sp (s : State) : (s.advance).sp = s.sp := rfl
@[simp] theorem State.advance_dt (s : State) : (s.advance).dt = s.dt := rfl
@[simp] theorem State.advance_st (s : State) : (s.advance).st = s.st := rfl
@[simp] theorem State.advance_fb (s : State) : (s.advance).fb = s.fb := rfl
@[simp] theorem State.advance_opcode (s : State) : (s.advance).opcode = s.opcode := rfl
@[simp] theorem State.advance_faultCode (s : State) : (s.advance).faultCode = s.faultCode := rfl
@[simp] theorem State.advance_faultPC (s : State) : (s.advance).faultPC = s.faultPC := rfl
@[simp] theorem State.advance_faultOpcode (s : State) : (s.advance).faultOpcode = s.faultOpcode := rfl
@[simp] theorem State.advance_unkCount (s : State) : (s.advance).unkCount = s.unkCount := rfl
@[simp] theorem State.advance_unkLastPC (s : State) : (s.advance).unkLastPC = s.unkLastPC := rfl
@[simp] theorem State.advance_unkLastOpcode (s : State) : (s.advance).unkLastOpcode = s.unkLastOpcode := rfl
@[simp] theorem State.advance_keys (s : State) : (s.advance).keys = s.keys := rfl
@[simp] theorem State.advance_mem (s : State) : (s.advance).mem = s.mem := rfl
@[simp] theorem State.advance_config (s : State) : (s.advance).config = s.config := rfl
@[simp] theorem State.advance_randomInput (s : State) : (s.advance).randomInput = s.randomInput := rfl
@[simp] theorem State.advance_randomCount (s : State) : (s.advance).randomCount = s.randomCount := rfl
@[simp] theorem State.advance_getV (s : State) (r : Nibble) : (s.advance).getV r = s.getV r := rfl
@[simp] theorem State.advance_readMem (s : State) (q : Nat) : (s.advance).readMem q = s.readMem q := rfl
@[simp] theorem State.advance_pixel (s : State) (px : Fin 64) (py : Fin 32) : (s.advance).pixel px py = s.pixel px py := rfl
@[simp] theorem State.advance_key (s : State) (q : Nat) : (s.advance).key q = s.key q := rfl
@[simp] theorem State.advance_halted (s : State) : (s.advance).halted = s.halted := rfl

/-! `skipIf` -/

@[simp] theorem State.skipIf_v (s : State) (c : Bool) : (s.skipIf c).v = s.v := rfl
@[simp] theorem State.skipIf_index (s : State) (c : Bool) : (s.skipIf c).index = s.index := rfl
@[simp] theorem State.skipIf_pc (s : State) (c : Bool) : (s.skipIf c).pc = BitVec.ofNat 16 ((s.pc.toNat + if c then 4 else 2) % memSize) := rfl
@[simp] theorem State.skipIf_stack (s : State) (c : Bool) : (s.skipIf c).stack = s.stack := rfl
@[simp] theorem State.skipIf_sp (s : State) (c : Bool) : (s.skipIf c).sp = s.sp := rfl
@[simp] theorem State.skipIf_dt (s : State) (c : Bool) : (s.skipIf c).dt = s.dt := rfl
@[simp] theorem State.skipIf_st (s : State) (c : Bool) : (s.skipIf c).st = s.st := rfl
@[simp] theorem State.skipIf_fb (s : State) (c : Bool) : (s.skipIf c).fb = s.fb := rfl
@[simp] theorem State.skipIf_opcode (s : State) (c : Bool) : (s.skipIf c).opcode = s.opcode := rfl
@[simp] theorem State.skipIf_faultCode (s : State) (c : Bool) : (s.skipIf c).faultCode = s.faultCode := rfl
@[simp] theorem State.skipIf_faultPC (s : State) (c : Bool) : (s.skipIf c).faultPC = s.faultPC := rfl
@[simp] theorem State.skipIf_faultOpcode (s : State) (c : Bool) : (s.skipIf c).faultOpcode = s.faultOpcode := rfl
@[simp] theorem State.skipIf_unkCount (s : State) (c : Bool) : (s.skipIf c).unkCount = s.unkCount := rfl
@[simp] theorem State.skipIf_unkLastPC (s : State) (c : Bool) : (s.skipIf c).unkLastPC = s.unkLastPC := rfl
@[simp] theorem State.skipIf_unkLastOpcode (s : State) (c : Bool) : (s.skipIf c).unkLastOpcode = s.unkLastOpcode := rfl
@[simp] theorem State.skipIf_keys (s : State) (c : Bool) : (s.skipIf c).keys = s.keys := rfl
@[simp] theorem State.skipIf_mem (s : State) (c : Bool) : (s.skipIf c).mem = s.mem := rfl
@[simp] theorem State.skipIf_config (s : State) (c : Bool) : (s.skipIf c).config = s.config := rfl
@[simp] theorem State.skipIf_randomInput (s : State) (c : Bool) : (s.skipIf c).randomInput = s.randomInput := rfl
@[simp] theorem State.skipIf_randomCount (s : State) (c : Bool) : (s.skipIf c).randomCount = s.randomCount := rfl
@[simp] theorem State.skipIf_getV (s : State) (c : Bool) (r : Nibble) : (s.skipIf c).getV r = s.getV r := rfl
@[simp] theorem State.skipIf_readMem (s : State) (c : Bool) (q : Nat) : (s.skipIf c).readMem q = s.readMem q := rfl
@[simp] theorem State.skipIf_pixel (s : State) (c : Bool) (px : Fin 64) (py : Fin 32) : (s.skipIf c).pixel px py = s.pixel px py := rfl
@[simp] theorem State.skipIf_key (s : State) (c : Bool) (q : Nat) : (s.skipIf c).key q = s.key q := rfl
@[simp] theorem State.skipIf_halted (s : State) (c : Bool) : (s.skipIf c).halted = s.halted := rfl

/-! `setFB` -/

@[simp] theorem State.setFB_v (s : State) (fb : Framebuffer) : (s.setFB fb).v = s.v := rfl
@[simp] theorem State.setFB_index (s : State) (fb : Framebuffer) : (s.setFB fb).index = s.index := rfl
@[simp] theorem State.setFB_pc (s : State) (fb : Framebuffer) : (s.setFB fb).pc = s.pc := rfl
@[simp] theorem State.setFB_stack (s : State) (fb : Framebuffer) : (s.setFB fb).stack = s.stack := rfl
@[simp] theorem State.setFB_sp (s : State) (fb : Framebuffer) : (s.setFB fb).sp = s.sp := rfl
@[simp] theorem State.setFB_dt (s : State) (fb : Framebuffer) : (s.setFB fb).dt = s.dt := rfl
@[simp] theorem State.setFB_st (s : State) (fb : Framebuffer) : (s.setFB fb).st = s.st := rfl
@[simp] theorem State.setFB_fb (s : State) (fb : Framebuffer) : (s.setFB fb).fb = fb := rfl
@[simp] theorem State.setFB_opcode (s : State) (fb : Framebuffer) : (s.setFB fb).opcode = s.opcode := rfl
@[simp] theorem State.setFB_faultCode (s : State) (fb : Framebuffer) : (s.setFB fb).faultCode = s.faultCode := rfl
@[simp] theorem State.setFB_faultPC (s : State) (fb : Framebuffer) : (s.setFB fb).faultPC = s.faultPC := rfl
@[simp] theorem State.setFB_faultOpcode (s : State) (fb : Framebuffer) : (s.setFB fb).faultOpcode = s.faultOpcode := rfl
@[simp] theorem State.setFB_unkCount (s : State) (fb : Framebuffer) : (s.setFB fb).unkCount = s.unkCount := rfl
@[simp] theorem State.setFB_unkLastPC (s : State) (fb : Framebuffer) : (s.setFB fb).unkLastPC = s.unkLastPC := rfl
@[simp] theorem State.setFB_unkLastOpcode (s : State) (fb : Framebuffer) : (s.setFB fb).unkLastOpcode = s.unkLastOpcode := rfl
@[simp] theorem State.setFB_keys (s : State) (fb : Framebuffer) : (s.setFB fb).keys = s.keys := rfl
@[simp] theorem State.setFB_mem (s : State) (fb : Framebuffer) : (s.setFB fb).mem = s.mem := rfl
@[simp] theorem State.setFB_config (s : State) (fb : Framebuffer) : (s.setFB fb).config = s.config := rfl
@[simp] theorem State.setFB_randomInput (s : State) (fb : Framebuffer) : (s.setFB fb).randomInput = s.randomInput := rfl
@[simp] theorem State.setFB_randomCount (s : State) (fb : Framebuffer) : (s.setFB fb).randomCount = s.randomCount := rfl
@[simp] theorem State.setFB_getV (s : State) (fb : Framebuffer) (r : Nibble) : (s.setFB fb).getV r = s.getV r := rfl
@[simp] theorem State.setFB_readMem (s : State) (fb : Framebuffer) (q : Nat) : (s.setFB fb).readMem q = s.readMem q := rfl
@[simp] theorem State.setFB_key (s : State) (fb : Framebuffer) (q : Nat) : (s.setFB fb).key q = s.key q := rfl
@[simp] theorem State.setFB_halted (s : State) (fb : Framebuffer) : (s.setFB fb).halted = s.halted := rfl

/-! `writeMem` -/

@[simp] theorem State.writeMem_v (s : State) (a : Nat) (b : Byte) : (s.writeMem a b).v = s.v := rfl
@[simp] theorem State.writeMem_index (s : State) (a : Nat) (b : Byte) : (s.writeMem a b).index = s.index := rfl
@[simp] theorem State.writeMem_pc (s : State) (a : Nat) (b : Byte) : (s.writeMem a b).pc = s.pc := rfl
@[simp] theorem State.writeMem_stack (s : State) (a : Nat) (b : Byte) : (s.writeMem a b).stack = s.stack := rfl
@[simp] theorem State.writeMem_sp (s : State) (a : Nat) (b : Byte) : (s.writeMem a b).sp = s.sp := rfl
@[simp] theorem State.writeMem_dt (s : State) (a : Nat) (b : Byte) : (s.writeMem a b).dt = s.dt := rfl
@[simp] theorem State.writeMem_st (s : State) (a : Nat) (b : Byte) : (s.writeMem a b).st = s.st := rfl
@[simp] theorem State.writeMem_fb (s : State) (a : Nat) (b : Byte) : (s.writeMem a b).fb = s.fb := rfl
@[simp] theorem State.writeMem_opcode (s : State) (a : Nat) (b : Byte) : (s.writeMem a b).opcode = s.opcode := rfl
@[simp] theorem State.writeMem_faultCode (s : State) (a : Nat) (b : Byte) : (s.writeMem a b).faultCode = s.faultCode := rfl
@[simp] theorem State.writeMem_faultPC (s : State) (a : Nat) (b : Byte) : (s.writeMem a b).faultPC = s.faultPC := rfl
@[simp] theorem State.writeMem_faultOpcode (s : State) (a : Nat) (b : Byte) : (s.writeMem a b).faultOpcode = s.faultOpcode := rfl
@[simp] theorem State.writeMem_unkCount (s : State) (a : Nat) (b : Byte) : (s.writeMem a b).unkCount = s.unkCount := rfl
@[simp] theorem State.writeMem_unkLastPC (s : State) (a : Nat) (b : Byte) : (s.writeMem a b).unkLastPC = s.unkLastPC := rfl
@[simp] theorem State.writeMem_unkLastOpcode (s : State) (a : Nat) (b : Byte) : (s.writeMem a b).unkLastOpcode = s.unkLastOpcode := rfl
@[simp] theorem State.writeMem_keys (s : State) (a : Nat) (b : Byte) : (s.writeMem a b).keys = s.keys := rfl
@[simp] theorem State.writeMem_mem (s : State) (a : Nat) (b : Byte) : (s.writeMem a b).mem = Memory.writeByte s.mem a b := rfl
@[simp] theorem State.writeMem_config (s : State) (a : Nat) (b : Byte) : (s.writeMem a b).config = s.config := rfl
@[simp] theorem State.writeMem_randomInput (s : State) (a : Nat) (b : Byte) : (s.writeMem a b).randomInput = s.randomInput := rfl
@[simp] theorem State.writeMem_randomCount (s : State) (a : Nat) (b : Byte) : (s.writeMem a b).randomCount = s.randomCount := rfl
@[simp] theorem State.writeMem_getV (s : State) (a : Nat) (b : Byte) (r : Nibble) : (s.writeMem a b).getV r = s.getV r := rfl
@[simp] theorem State.writeMem_pixel (s : State) (a : Nat) (b : Byte) (px : Fin 64) (py : Fin 32) : (s.writeMem a b).pixel px py = s.pixel px py := rfl
@[simp] theorem State.writeMem_key (s : State) (a : Nat) (b : Byte) (q : Nat) : (s.writeMem a b).key q = s.key q := rfl
@[simp] theorem State.writeMem_halted (s : State) (a : Nat) (b : Byte) : (s.writeMem a b).halted = s.halted := rfl

/-! `writeMemBytes` -/

@[simp] theorem State.writeMemBytes_v (s : State) (a : Nat) (bs : List Byte) : (s.writeMemBytes a bs).v = s.v := rfl
@[simp] theorem State.writeMemBytes_index (s : State) (a : Nat) (bs : List Byte) : (s.writeMemBytes a bs).index = s.index := rfl
@[simp] theorem State.writeMemBytes_pc (s : State) (a : Nat) (bs : List Byte) : (s.writeMemBytes a bs).pc = s.pc := rfl
@[simp] theorem State.writeMemBytes_stack (s : State) (a : Nat) (bs : List Byte) : (s.writeMemBytes a bs).stack = s.stack := rfl
@[simp] theorem State.writeMemBytes_sp (s : State) (a : Nat) (bs : List Byte) : (s.writeMemBytes a bs).sp = s.sp := rfl
@[simp] theorem State.writeMemBytes_dt (s : State) (a : Nat) (bs : List Byte) : (s.writeMemBytes a bs).dt = s.dt := rfl
@[simp] theorem State.writeMemBytes_st (s : State) (a : Nat) (bs : List Byte) : (s.writeMemBytes a bs).st = s.st := rfl
@[simp] theorem State.writeMemBytes_fb (s : State) (a : Nat) (bs : List Byte) : (s.writeMemBytes a bs).fb = s.fb := rfl
@[simp] theorem State.writeMemBytes_opcode (s : State) (a : Nat) (bs : List Byte) : (s.writeMemBytes a bs).opcode = s.opcode := rfl
@[simp] theorem State.writeMemBytes_faultCode (s : State) (a : Nat) (bs : List Byte) : (s.writeMemBytes a bs).faultCode = s.faultCode := rfl
@[simp] theorem State.writeMemBytes_faultPC (s : State) (a : Nat) (bs : List Byte) : (s.writeMemBytes a bs).faultPC = s.faultPC := rfl
@[simp] theorem State.writeMemBytes_faultOpcode (s : State) (a : Nat) (bs : List Byte) : (s.writeMemBytes a bs).faultOpcode = s.faultOpcode := rfl
@[simp] theorem State.writeMemBytes_unkCount (s : State) (a : Nat) (bs : List Byte) : (s.writeMemBytes a bs).unkCount = s.unkCount := rfl
@[simp] theorem State.writeMemBytes_unkLastPC (s : State) (a : Nat) (bs : List Byte) : (s.writeMemBytes a bs).unkLastPC = s.unkLastPC := rfl
@[simp] theorem State.writeMemBytes_unkLastOpcode (s : State) (a : Nat) (bs : List Byte) : (s.writeMemBytes a bs).unkLastOpcode = s.unkLastOpcode := rfl
@[simp] theorem State.writeMemBytes_keys (s : State) (a : Nat) (bs : List Byte) : (s.writeMemBytes a bs).keys = s.keys := rfl
@[simp] theorem State.writeMemBytes_mem (s : State) (a : Nat) (bs : List Byte) : (s.writeMemBytes a bs).mem = Memory.writeBytes s.mem a bs := rfl
@[simp] theorem State.writeMemBytes_config (s : State) (a : Nat) (bs : List Byte) : (s.writeMemBytes a bs).config = s.config := rfl
@[simp] theorem State.writeMemBytes_randomInput (s : State) (a : Nat) (bs : List Byte) : (s.writeMemBytes a bs).randomInput = s.randomInput := rfl
@[simp] theorem State.writeMemBytes_randomCount (s : State) (a : Nat) (bs : List Byte) : (s.writeMemBytes a bs).randomCount = s.randomCount := rfl
@[simp] theorem State.writeMemBytes_getV (s : State) (a : Nat) (bs : List Byte) (r : Nibble) : (s.writeMemBytes a bs).getV r = s.getV r := rfl
@[simp] theorem State.writeMemBytes_pixel (s : State) (a : Nat) (bs : List Byte) (px : Fin 64) (py : Fin 32) : (s.writeMemBytes a bs).pixel px py = s.pixel px py := rfl
@[simp] theorem State.writeMemBytes_key (s : State) (a : Nat) (bs : List Byte) (q : Nat) : (s.writeMemBytes a bs).key q = s.key q := rfl
@[simp] theorem State.writeMemBytes_halted (s : State) (a : Nat) (bs : List Byte) : (s.writeMemBytes a bs).halted = s.halted := rfl

/-! `takeRand` -/

@[simp] theorem State.takeRand_v (s : State) : (s.takeRand).v = s.v := rfl
@[simp] theorem State.takeRand_index (s : State) : (s.takeRand).index = s.index := rfl
@[simp] theorem State.takeRand_pc (s : State) : (s.takeRand).pc = s.pc := rfl
@[simp] theorem State.takeRand_stack (s : State) : (s.takeRand).stack = s.stack := rfl
@[simp] theorem State.takeRand_sp (s : State) : (s.takeRand).sp = s.sp := rfl
@[simp] theorem State.takeRand_dt (s : State) : (s.takeRand).dt = s.dt := rfl
@[simp] theorem State.takeRand_st (s : State) : (s.takeRand).st = s.st := rfl
@[simp] theorem State.takeRand_fb (s : State) : (s.takeRand).fb = s.fb := rfl
@[simp] theorem State.takeRand_opcode (s : State) : (s.takeRand).opcode = s.opcode := rfl
@[simp] theorem State.takeRand_faultCode (s : State) : (s.takeRand).faultCode = s.faultCode := rfl
@[simp] theorem State.takeRand_faultPC (s : State) : (s.takeRand).faultPC = s.faultPC := rfl
@[simp] theorem State.takeRand_faultOpcode (s : State) : (s.takeRand).faultOpcode = s.faultOpcode := rfl
@[simp] theorem State.takeRand_unkCount (s : State) : (s.takeRand).unkCount = s.unkCount := rfl
@[simp] theorem State.takeRand_unkLastPC (s : State) : (s.takeRand).unkLastPC = s.unkLastPC := rfl
@[simp] theorem State.takeRand_unkLastOpcode (s : State) : (s.takeRand).unkLastOpcode = s.unkLastOpcode := rfl
@[simp] theorem State.takeRand_keys (s : State) : (s.takeRand).keys = s.keys := rfl
@[simp] theorem State.takeRand_mem (s : State) : (s.takeRand).mem = s.mem := rfl
@[simp] theorem State.takeRand_config (s : State) : (s.takeRand).config = s.config := rfl
@[simp] theorem State.takeRand_randomInput (s : State) : (s.takeRand).randomInput = s.randomInput.tail := rfl
@[simp] theorem State.takeRand_randomCount (s : State) : (s.takeRand).randomCount = s.randomCount + 1 := rfl
@[simp] theorem State.takeRand_getV (s : State) (r : Nibble) : (s.takeRand).getV r = s.getV r := rfl
@[simp] theorem State.takeRand_readMem (s : State) (q : Nat) : (s.takeRand).readMem q = s.readMem q := rfl
@[simp] theorem State.takeRand_pixel (s : State) (px : Fin 64) (py : Fin 32) : (s.takeRand).pixel px py = s.pixel px py := rfl
@[simp] theorem State.takeRand_key (s : State) (q : Nat) : (s.takeRand).key q = s.key q := rfl
@[simp] theorem State.takeRand_halted (s : State) : (s.takeRand).halted = s.halted := rfl

/-! `raise` -/

@[simp] theorem State.raise_v (s : State) (c : FaultCause) : (s.raise c).v = s.v := rfl
@[simp] theorem State.raise_index (s : State) (c : FaultCause) : (s.raise c).index = s.index := rfl
@[simp] theorem State.raise_pc (s : State) (c : FaultCause) : (s.raise c).pc = s.pc := rfl
@[simp] theorem State.raise_stack (s : State) (c : FaultCause) : (s.raise c).stack = s.stack := rfl
@[simp] theorem State.raise_sp (s : State) (c : FaultCause) : (s.raise c).sp = s.sp := rfl
@[simp] theorem State.raise_dt (s : State) (c : FaultCause) : (s.raise c).dt = s.dt := rfl
@[simp] theorem State.raise_st (s : State) (c : FaultCause) : (s.raise c).st = s.st := rfl
@[simp] theorem State.raise_fb (s : State) (c : FaultCause) : (s.raise c).fb = s.fb := rfl
@[simp] theorem State.raise_opcode (s : State) (c : FaultCause) : (s.raise c).opcode = s.opcode := rfl
@[simp] theorem State.raise_faultCode (s : State) (c : FaultCause) : (s.raise c).faultCode = c.code := rfl
@[simp] theorem State.raise_faultPC (s : State) (c : FaultCause) : (s.raise c).faultPC = s.pc := rfl
@[simp] theorem State.raise_faultOpcode (s : State) (c : FaultCause) : (s.raise c).faultOpcode = s.opcode := rfl
@[simp] theorem State.raise_unkCount (s : State) (c : FaultCause) : (s.raise c).unkCount = s.unkCount := rfl
@[simp] theorem State.raise_unkLastPC (s : State) (c : FaultCause) : (s.raise c).unkLastPC = s.unkLastPC := rfl
@[simp] theorem State.raise_unkLastOpcode (s : State) (c : FaultCause) : (s.raise c).unkLastOpcode = s.unkLastOpcode := rfl
@[simp] theorem State.raise_keys (s : State) (c : FaultCause) : (s.raise c).keys = s.keys := rfl
@[simp] theorem State.raise_mem (s : State) (c : FaultCause) : (s.raise c).mem = s.mem := rfl
@[simp] theorem State.raise_config (s : State) (c : FaultCause) : (s.raise c).config = s.config := rfl
@[simp] theorem State.raise_randomInput (s : State) (c : FaultCause) : (s.raise c).randomInput = s.randomInput := rfl
@[simp] theorem State.raise_randomCount (s : State) (c : FaultCause) : (s.raise c).randomCount = s.randomCount := rfl
@[simp] theorem State.raise_getV (s : State) (c : FaultCause) (r : Nibble) : (s.raise c).getV r = s.getV r := rfl
@[simp] theorem State.raise_readMem (s : State) (c : FaultCause) (q : Nat) : (s.raise c).readMem q = s.readMem q := rfl
@[simp] theorem State.raise_pixel (s : State) (c : FaultCause) (px : Fin 64) (py : Fin 32) : (s.raise c).pixel px py = s.pixel px py := rfl
@[simp] theorem State.raise_key (s : State) (c : FaultCause) (q : Nat) : (s.raise c).key q = s.key q := rfl

/-! `traceUnknown` -/

@[simp] theorem State.traceUnknown_v (s : State) : (s.traceUnknown).v = s.v := rfl
@[simp] theorem State.traceUnknown_index (s : State) : (s.traceUnknown).index = s.index := rfl
@[simp] theorem State.traceUnknown_pc (s : State) : (s.traceUnknown).pc = s.pc := rfl
@[simp] theorem State.traceUnknown_stack (s : State) : (s.traceUnknown).stack = s.stack := rfl
@[simp] theorem State.traceUnknown_sp (s : State) : (s.traceUnknown).sp = s.sp := rfl
@[simp] theorem State.traceUnknown_dt (s : State) : (s.traceUnknown).dt = s.dt := rfl
@[simp] theorem State.traceUnknown_st (s : State) : (s.traceUnknown).st = s.st := rfl
@[simp] theorem State.traceUnknown_fb (s : State) : (s.traceUnknown).fb = s.fb := rfl
@[simp] theorem State.traceUnknown_opcode (s : State) : (s.traceUnknown).opcode = s.opcode := rfl
@[simp] theorem State.traceUnknown_faultCode (s : State) : (s.traceUnknown).faultCode = s.faultCode := rfl
@[simp] theorem State.traceUnknown_faultPC (s : State) : (s.traceUnknown).faultPC = s.faultPC := rfl
@[simp] theorem State.traceUnknown_faultOpcode (s : State) : (s.traceUnknown).faultOpcode = s.faultOpcode := rfl
@[simp] theorem State.traceUnknown_unkCount (s : State) : (s.traceUnknown).unkCount = BitVec.ofNat 16 (min (s.unkCount.toNat + 1) 0xFFFF) := rfl
@[simp] theorem State.traceUnknown_unkLastPC (s : State) : (s.traceUnknown).unkLastPC = s.pc := rfl
@[simp] theorem State.traceUnknown_unkLastOpcode (s : State) : (s.traceUnknown).unkLastOpcode = s.opcode := rfl
@[simp] theorem State.traceUnknown_keys (s : State) : (s.traceUnknown).keys = s.keys := rfl
@[simp] theorem State.traceUnknown_mem (s : State) : (s.traceUnknown).mem = s.mem := rfl
@[simp] theorem State.traceUnknown_config (s : State) : (s.traceUnknown).config = s.config := rfl
@[simp] theorem State.traceUnknown_randomInput (s : State) : (s.traceUnknown).randomInput = s.randomInput := rfl
@[simp] theorem State.traceUnknown_randomCount (s : State) : (s.traceUnknown).randomCount = s.randomCount := rfl
@[simp] theorem State.traceUnknown_getV (s : State) (r : Nibble) : (s.traceUnknown).getV r = s.getV r := rfl
@[simp] theorem State.traceUnknown_readMem (s : State) (q : Nat) : (s.traceUnknown).readMem q = s.readMem q := rfl
@[simp] theorem State.traceUnknown_pixel (s : State) (px : Fin 64) (py : Fin 32) : (s.traceUnknown).pixel px py = s.pixel px py := rfl
@[simp] theorem State.traceUnknown_key (s : State) (q : Nat) : (s.traceUnknown).key q = s.key q := rfl
@[simp] theorem State.traceUnknown_halted (s : State) : (s.traceUnknown).halted = s.halted := rfl

/-! `tick` -/

@[simp] theorem State.tick_v (s : State) : (s.tick).v = s.v := rfl
@[simp] theorem State.tick_index (s : State) : (s.tick).index = s.index := rfl
@[simp] theorem State.tick_pc (s : State) : (s.tick).pc = s.pc := rfl
@[simp] theorem State.tick_stack (s : State) : (s.tick).stack = s.stack := rfl
@[simp] theorem State.tick_sp (s : State) : (s.tick).sp = s.sp := rfl
@[simp] theorem State.tick_dt (s : State) : (s.tick).dt = countDown s.dt := rfl
@[simp] theorem State.tick_st (s : State) : (s.tick).st = countDown s.st := rfl
@[simp] theorem State.tick_fb (s : State) : (s.tick).fb = s.fb := rfl
@[simp] theorem State.tick_opcode (s : State) : (s.tick).opcode = s.opcode := rfl
@[simp] theorem State.tick_faultCode (s : State) : (s.tick).faultCode = s.faultCode := rfl
@[simp] theorem State.tick_faultPC (s : State) : (s.tick).faultPC = s.faultPC := rfl
@[simp] theorem State.tick_faultOpcode (s : State) : (s.tick).faultOpcode = s.faultOpcode := rfl
@[simp] theorem State.tick_unkCount (s : State) : (s.tick).unkCount = s.unkCount := rfl
@[simp] theorem State.tick_unkLastPC (s : State) : (s.tick).unkLastPC = s.unkLastPC := rfl
@[simp] theorem State.tick_unkLastOpcode (s : State) : (s.tick).unkLastOpcode = s.unkLastOpcode := rfl
@[simp] theorem State.tick_keys (s : State) : (s.tick).keys = s.keys := rfl
@[simp] theorem State.tick_mem (s : State) : (s.tick).mem = s.mem := rfl
@[simp] theorem State.tick_config (s : State) : (s.tick).config = s.config := rfl
@[simp] theorem State.tick_randomInput (s : State) : (s.tick).randomInput = s.randomInput := rfl
@[simp] theorem State.tick_randomCount (s : State) : (s.tick).randomCount = s.randomCount := rfl
@[simp] theorem State.tick_getV (s : State) (r : Nibble) : (s.tick).getV r = s.getV r := rfl
@[simp] theorem State.tick_readMem (s : State) (q : Nat) : (s.tick).readMem q = s.readMem q := rfl
@[simp] theorem State.tick_pixel (s : State) (px : Fin 64) (py : Fin 32) : (s.tick).pixel px py = s.pixel px py := rfl
@[simp] theorem State.tick_key (s : State) (q : Nat) : (s.tick).key q = s.key q := rfl
@[simp] theorem State.tick_halted (s : State) : (s.tick).halted = s.halted := rfl

/-! `setKeys` -/

@[simp] theorem State.setKeys_v (s : State) (k : BitVec 16) : (s.setKeys k).v = s.v := rfl
@[simp] theorem State.setKeys_index (s : State) (k : BitVec 16) : (s.setKeys k).index = s.index := rfl
@[simp] theorem State.setKeys_pc (s : State) (k : BitVec 16) : (s.setKeys k).pc = s.pc := rfl
@[simp] theorem State.setKeys_stack (s : State) (k : BitVec 16) : (s.setKeys k).stack = s.stack := rfl
@[simp] theorem State.setKeys_sp (s : State) (k : BitVec 16) : (s.setKeys k).sp = s.sp := rfl
@[simp] theorem State.setKeys_dt (s : State) (k : BitVec 16) : (s.setKeys k).dt = s.dt := rfl
@[simp] theorem State.setKeys_st (s : State) (k : BitVec 16) : (s.setKeys k).st = s.st := rfl
@[simp] theorem State.setKeys_fb (s : State) (k : BitVec 16) : (s.setKeys k).fb = s.fb := rfl
@[simp] theorem State.setKeys_opcode (s : State) (k : BitVec 16) : (s.setKeys k).opcode = s.opcode := rfl
@[simp] theorem State.setKeys_faultCode (s : State) (k : BitVec 16) : (s.setKeys k).faultCode = s.faultCode := rfl
@[simp] theorem State.setKeys_faultPC (s : State) (k : BitVec 16) : (s.setKeys k).faultPC = s.faultPC := rfl
@[simp] theorem State.setKeys_faultOpcode (s : State) (k : BitVec 16) : (s.setKeys k).faultOpcode = s.faultOpcode := rfl
@[simp] theorem State.setKeys_unkCount (s : State) (k : BitVec 16) : (s.setKeys k).unkCount = s.unkCount := rfl
@[simp] theorem State.setKeys_unkLastPC (s : State) (k : BitVec 16) : (s.setKeys k).unkLastPC = s.unkLastPC := rfl
@[simp] theorem State.setKeys_unkLastOpcode (s : State) (k : BitVec 16) : (s.setKeys k).unkLastOpcode = s.unkLastOpcode := rfl
@[simp] theorem State.setKeys_keys (s : State) (k : BitVec 16) : (s.setKeys k).keys = k := rfl
@[simp] theorem State.setKeys_mem (s : State) (k : BitVec 16) : (s.setKeys k).mem = s.mem := rfl
@[simp] theorem State.setKeys_config (s : State) (k : BitVec 16) : (s.setKeys k).config = s.config := rfl
@[simp] theorem State.setKeys_randomInput (s : State) (k : BitVec 16) : (s.setKeys k).randomInput = s.randomInput := rfl
@[simp] theorem State.setKeys_randomCount (s : State) (k : BitVec 16) : (s.setKeys k).randomCount = s.randomCount := rfl
@[simp] theorem State.setKeys_getV (s : State) (k : BitVec 16) (r : Nibble) : (s.setKeys k).getV r = s.getV r := rfl
@[simp] theorem State.setKeys_readMem (s : State) (k : BitVec 16) (q : Nat) : (s.setKeys k).readMem q = s.readMem q := rfl
@[simp] theorem State.setKeys_pixel (s : State) (k : BitVec 16) (px : Fin 64) (py : Fin 32) : (s.setKeys k).pixel px py = s.pixel px py := rfl
@[simp] theorem State.setKeys_halted (s : State) (k : BitVec 16) : (s.setKeys k).halted = s.halted := rfl

/-! `supplyRandom` -/

@[simp] theorem State.supplyRandom_v (s : State) (b : Byte) : (s.supplyRandom b).v = s.v := rfl
@[simp] theorem State.supplyRandom_index (s : State) (b : Byte) : (s.supplyRandom b).index = s.index := rfl
@[simp] theorem State.supplyRandom_pc (s : State) (b : Byte) : (s.supplyRandom b).pc = s.pc := rfl
@[simp] theorem State.supplyRandom_stack (s : State) (b : Byte) : (s.supplyRandom b).stack = s.stack := rfl
@[simp] theorem State.supplyRandom_sp (s : State) (b : Byte) : (s.supplyRandom b).sp = s.sp := rfl
@[simp] theorem State.supplyRandom_dt (s : State) (b : Byte) : (s.supplyRandom b).dt = s.dt := rfl
@[simp] theorem State.supplyRandom_st (s : State) (b : Byte) : (s.supplyRandom b).st = s.st := rfl
@[simp] theorem State.supplyRandom_fb (s : State) (b : Byte) : (s.supplyRandom b).fb = s.fb := rfl
@[simp] theorem State.supplyRandom_opcode (s : State) (b : Byte) : (s.supplyRandom b).opcode = s.opcode := rfl
@[simp] theorem State.supplyRandom_faultCode (s : State) (b : Byte) : (s.supplyRandom b).faultCode = s.faultCode := rfl
@[simp] theorem State.supplyRandom_faultPC (s : State) (b : Byte) : (s.supplyRandom b).faultPC = s.faultPC := rfl
@[simp] theorem State.supplyRandom_faultOpcode (s : State) (b : Byte) : (s.supplyRandom b).faultOpcode = s.faultOpcode := rfl
@[simp] theorem State.supplyRandom_unkCount (s : State) (b : Byte) : (s.supplyRandom b).unkCount = s.unkCount := rfl
@[simp] theorem State.supplyRandom_unkLastPC (s : State) (b : Byte) : (s.supplyRandom b).unkLastPC = s.unkLastPC := rfl
@[simp] theorem State.supplyRandom_unkLastOpcode (s : State) (b : Byte) : (s.supplyRandom b).unkLastOpcode = s.unkLastOpcode := rfl
@[simp] theorem State.supplyRandom_keys (s : State) (b : Byte) : (s.supplyRandom b).keys = s.keys := rfl
@[simp] theorem State.supplyRandom_mem (s : State) (b : Byte) : (s.supplyRandom b).mem = s.mem := rfl
@[simp] theorem State.supplyRandom_config (s : State) (b : Byte) : (s.supplyRandom b).config = s.config := rfl
@[simp] theorem State.supplyRandom_randomInput (s : State) (b : Byte) : (s.supplyRandom b).randomInput = s.randomInput ++ [b] := rfl
@[simp] theorem State.supplyRandom_randomCount (s : State) (b : Byte) : (s.supplyRandom b).randomCount = s.randomCount := rfl
@[simp] theorem State.supplyRandom_getV (s : State) (b : Byte) (r : Nibble) : (s.supplyRandom b).getV r = s.getV r := rfl
@[simp] theorem State.supplyRandom_readMem (s : State) (b : Byte) (q : Nat) : (s.supplyRandom b).readMem q = s.readMem q := rfl
@[simp] theorem State.supplyRandom_pixel (s : State) (b : Byte) (px : Fin 64) (py : Fin 32) : (s.supplyRandom b).pixel px py = s.pixel px py := rfl
@[simp] theorem State.supplyRandom_key (s : State) (b : Byte) (q : Nat) : (s.supplyRandom b).key q = s.key q := rfl
@[simp] theorem State.supplyRandom_halted (s : State) (b : Byte) : (s.supplyRandom b).halted = s.halted := rfl

end Sys2Proof.Machine
end

