-- ==== Sys2Proof/Laws/Display.lean ====
section
/-! SUPPORT. The laws of the framebuffer and of drawing (spec 40_display.md R101-R104): what one sprite
bit does, and what a list of sprite bits does when no two of them land on one pixel. -/

namespace Sys2Proof.Machine

/-! ### Pixels -/

/-- Everything a flip does to the pixels. -/
theorem Framebuffer.pixel_flip (fb : Framebuffer) (x X : Fin 64) (y Y : Fin 32) :
    Framebuffer.pixel (Framebuffer.flip fb x y) X Y =
      (Framebuffer.pixel fb X Y ^^ decide (x = X ∧ y = Y)) := by
  unfold Framebuffer.pixel Framebuffer.flip
  by_cases hy : y = Y
  · subst hy
    by_cases hx : x = X
    · subst hx
      simp [Vector.get_eq_getElem]
    · have hx' : ¬ X.val = x.val := fun e => hx (Fin.ext e.symm)
      simp [Vector.get_eq_getElem, hx, hx']
  · have hy' : ¬ y.val = Y.val := fun e => hy (Fin.ext e)
    simp [Vector.get_eq_getElem, hy, hy', Vector.getElem_set_ne]

@[simp] theorem Framebuffer.pixel_blank (x : Fin 64) (y : Fin 32) :
    Framebuffer.pixel Framebuffer.blank x y = false := by
  simp [Framebuffer.pixel, Framebuffer.blank, Vector.get_eq_getElem]

/-- Framebuffers with the same pixels are equal. -/
theorem Framebuffer.ext_pixel {fb fb' : Framebuffer}
    (h : ∀ x y, Framebuffer.pixel fb x y = Framebuffer.pixel fb' x y) : fb = fb' := by
  apply Vector.ext
  intro y hy
  apply BitVec.eq_of_getLsbD_eq
  intro x hx
  exact h ⟨x, hx⟩ ⟨y, hy⟩

/-! ### Where a sprite bit is drawn (R103) -/

/-- Everything `place` can answer. -/
theorem place_eq_some {edge : SpriteEdge} {px py : Nat} {X : Fin 64} {Y : Fin 32} :
    place edge px py = some (X, Y) ↔
      match edge with
      | .clip => px = X.val ∧ py = Y.val
      | .wrap => px % 64 = X.val ∧ py % 32 = Y.val := by
  cases edge
  · have hX := X.isLt
    have hY := Y.isLt
    simp only [place]
    split
    · simp only [Option.some.injEq, Prod.mk.injEq, Fin.ext_iff]
    · constructor
      · intro h; cases h
      · intro h; omega
  · simp only [place, Option.some.injEq, Prod.mk.injEq, Fin.ext_iff]

/-! ### One sprite bit, and a list of them -/

/-- Everything one sprite bit does to the pixels: it flips the pixel it is placed at. -/
theorem pixel_drawBit (edge : SpriteEdge) (px py : Nat) (bit : Bool) (acc : Framebuffer × Bool)
    (X : Fin 64) (Y : Fin 32) :
    Framebuffer.pixel (drawBit edge px py bit acc).1 X Y =
      (Framebuffer.pixel acc.1 X Y ^^ decide (bit = true ∧ place edge px py = some (X, Y))) := by
  unfold drawBit
  cases bit with
  | false => simp
  | true =>
    cases h : place edge px py with
    | none => simp
    | some p => simp [Framebuffer.pixel_flip, Prod.ext_iff]

/-- Everything one sprite bit does to the collision flag: it is set where the pixel was on. -/
theorem hit_drawBit (edge : SpriteEdge) (px py : Nat) (bit : Bool) (acc : Framebuffer × Bool) :
    (drawBit edge px py bit acc).2 = true ↔
      acc.2 = true ∨ (bit = true ∧ ∃ X Y, place edge px py = some (X, Y) ∧
        Framebuffer.pixel acc.1 X Y = true) := by
  unfold drawBit
  cases bit with
  | false => simp
  | true =>
    cases h : place edge px py with
    | none => simp
    | some p =>
      obtain ⟨x, y⟩ := p
      simp

/-- A sprite bit and the unwrapped coordinates it belongs to. -/
structure SpriteBit where
  px : Nat
  py : Nat
  bit : Bool

/-- Sprite bits drawn one after another. -/
def drawBits (edge : SpriteEdge) (ts : List SpriteBit) (acc : Framebuffer × Bool) :
    Framebuffer × Bool :=
  ts.foldl (fun a t => drawBit edge t.px t.py t.bit a) acc

/-- A 1 bit of the list is placed at (X, Y). -/
def BitsLand (edge : SpriteEdge) (ts : List SpriteBit) (X : Fin 64) (Y : Fin 32) : Prop :=
  ∃ t ∈ ts, t.bit = true ∧ place edge t.px t.py = some (X, Y)

/-- No two bits of the list are placed at one pixel. -/
def Apart (edge : SpriteEdge) (ts : List SpriteBit) : Prop :=
  ts.Pairwise fun t u => ∀ p, ¬ (place edge t.px t.py = some p ∧ place edge u.px u.py = some p)

/-- Everything a list of sprite bits does, when no two of them share a pixel: each pixel a 1 bit lands
on is flipped, and the flag is set exactly where one of those pixels was on before. -/
theorem drawBits_spec (edge : SpriteEdge) (ts : List SpriteBit) (acc : Framebuffer × Bool)
    (h : Apart edge ts) :
    (∀ X Y, (BitsLand edge ts X Y →
        Framebuffer.pixel (drawBits edge ts acc).1 X Y = !Framebuffer.pixel acc.1 X Y) ∧
      (¬ BitsLand edge ts X Y →
        Framebuffer.pixel (drawBits edge ts acc).1 X Y = Framebuffer.pixel acc.1 X Y)) ∧
    ((drawBits edge ts acc).2 = true ↔
      acc.2 = true ∨ ∃ X Y, BitsLand edge ts X Y ∧ Framebuffer.pixel acc.1 X Y = true) := by
  induction ts generalizing acc with
  | nil => simp [drawBits, BitsLand]
  | cons t rest ih =>
    obtain ⟨hhead, htail⟩ := List.pairwise_cons.mp h
    obtain ⟨ihp, ihh⟩ := ih (drawBit edge t.px t.py t.bit acc) htail
    have hcons : ∀ X Y, BitsLand edge (t :: rest) X Y ↔
        (t.bit = true ∧ place edge t.px t.py = some (X, Y)) ∨ BitsLand edge rest X Y := by
      intro X Y
      simp [BitsLand]
    have happ : ∀ X Y, place edge t.px t.py = some (X, Y) → ¬ BitsLand edge rest X Y := by
      rintro X Y ht ⟨u, hu, -, hpu⟩
      exact hhead u hu (X, Y) ⟨ht, hpu⟩
    have hstep : drawBits edge (t :: rest) acc = drawBits edge rest (drawBit edge t.px t.py t.bit acc) :=
      rfl
    rw [hstep]
    refine ⟨fun X Y => ⟨fun hl => ?_, fun hl => ?_⟩, ?_⟩
    · rcases (hcons X Y).mp hl with ⟨hb, hp⟩ | hr
      · rw [(ihp X Y).2 (happ X Y hp), pixel_drawBit]
        simp [hb, hp]
      · rw [(ihp X Y).1 hr, pixel_drawBit]
        have hp : ¬ place edge t.px t.py = some (X, Y) := fun e => happ X Y e hr
        simp [hp]
    · have hl' := fun e => hl ((hcons X Y).mpr e)
      rw [(ihp X Y).2 fun e => hl' (.inr e), pixel_drawBit]
      have : ¬ (t.bit = true ∧ place edge t.px t.py = some (X, Y)) := fun e => hl' (.inl e)
      simp [this]
    · rw [ihh, hit_drawBit]
      constructor
      · rintro ((ha | ⟨hb, X, Y, hp, hpx⟩) | ⟨X, Y, hl, hpx⟩)
        · exact .inl ha
        · exact .inr ⟨X, Y, (hcons X Y).mpr (.inl ⟨hb, hp⟩), hpx⟩
        · refine .inr ⟨X, Y, (hcons X Y).mpr (.inr hl), ?_⟩
          have hp : ¬ place edge t.px t.py = some (X, Y) := fun e => happ X Y e hl
          simpa [pixel_drawBit, hp] using hpx
      · rintro (ha | ⟨X, Y, hl, hpx⟩)
        · exact .inl (.inl ha)
        · rcases (hcons X Y).mp hl with ⟨hb, hp⟩ | hr
          · exact .inl (.inr ⟨hb, X, Y, hp, hpx⟩)
          · refine .inr ⟨X, Y, hr, ?_⟩
            have hp : ¬ place edge t.px t.py = some (X, Y) := fun e => happ X Y e hr
            simpa [pixel_drawBit, hp] using hpx

/-! ### The bits of a sprite (R101) -/

/-- The bits of one sprite row, from the left. -/
def rowBits (x0 py : Nat) (b : Byte) : List SpriteBit :=
  (List.range 8).map fun c => ⟨x0 + c, py, b.getLsbD (7 - c)⟩

/-- The bits of a sprite, row by row from the top. -/
def spriteBits (x0 y0 : Nat) : List Byte → List SpriteBit
  | [] => []
  | b :: rest => rowBits x0 y0 b ++ spriteBits x0 (y0 + 1) rest

theorem drawRow_eq_drawBits (edge : SpriteEdge) (x0 py : Nat) (b : Byte) (acc : Framebuffer × Bool) :
    drawRow edge x0 py b acc = drawBits edge (rowBits x0 py b) acc := by
  simp only [drawRow, drawBits, rowBits, List.foldl_map]

/-- The nested loops of R101 draw the sprite's bits in order. -/
theorem drawRows_eq_drawBits (edge : SpriteEdge) (x0 y0 : Nat) (rows : List Byte)
    (acc : Framebuffer × Bool) :
    drawRows edge x0 y0 rows acc = drawBits edge (spriteBits x0 y0 rows) acc := by
  induction rows generalizing y0 acc with
  | nil => rfl
  | cons b rest ih =>
    rw [drawRows, ih, drawRow_eq_drawBits]
    simp only [spriteBits, drawBits, List.foldl_append]

theorem mem_spriteBits {x0 y0 : Nat} {rows : List Byte} {t : SpriteBit} :
    t ∈ spriteBits x0 y0 rows ↔
      ∃ r c : Nat, ∃ h : r < rows.length, c < 8 ∧ t = ⟨x0 + c, y0 + r, rows[r].getLsbD (7 - c)⟩ := by
  induction rows generalizing y0 with
  | nil => simp [spriteBits]
  | cons b rest ih =>
    simp only [spriteBits, rowBits, List.mem_append, List.mem_map, List.mem_range, ih]
    constructor
    · rintro (⟨c, hc, rfl⟩ | ⟨r, c, hr, hc, rfl⟩)
      · exact ⟨0, c, by simp, hc, rfl⟩
      · exact ⟨r + 1, c, by simpa using hr, hc, by simp [Nat.add_assoc, Nat.add_comm 1 r]⟩
    · rintro ⟨r, c, hr, hc, rfl⟩
      cases r with
      | zero => exact .inl ⟨c, hc, rfl⟩
      | succ r =>
        exact .inr ⟨r, c, by simpa using hr, hc, by simp [Nat.add_assoc, Nat.add_comm 1 r]⟩

/-- A sprite of at most 32 rows has no two bits on one pixel (R103). -/
theorem spriteBits_apart (edge : SpriteEdge) (x0 y0 : Nat) (rows : List Byte) (h : rows.length ≤ 32) :
    Apart edge (spriteBits x0 y0 rows) := by
  induction rows generalizing y0 with
  | nil => exact List.Pairwise.nil
  | cons b rest ih =>
    rw [List.length_cons] at h
    refine List.pairwise_append.mpr ⟨?_, ih (y0 + 1) (by omega), ?_⟩
    · refine List.pairwise_map.mpr (List.pairwise_lt_range.imp_of_mem ?_)
      rintro a c ha hc hac ⟨X, Y⟩ ⟨h1, h2⟩
      have ha := List.mem_range.mp ha
      have hc := List.mem_range.mp hc
      rw [place_eq_some] at h1 h2
      cases edge <;> simp only at h1 h2 <;> omega
    · rintro t ht u hu ⟨X, Y⟩ ⟨h1, h2⟩
      obtain ⟨c, -, rfl⟩ := List.mem_map.mp ht
      obtain ⟨r, c', hr, -, rfl⟩ := mem_spriteBits.mp hu
      rw [place_eq_some] at h1 h2
      cases edge <;> simp only at h1 h2 <;> omega

end Sys2Proof.Machine
end

