-- ==== Sys2Proof/Laws/Memory.lean ====
section
/-! SUPPORT. The laws of memory (spec 00_scope.md R10, 20_memory.md R61, R63, R68): a read after a write,
and that every write keeps the canonical form. -/

namespace Sys2Proof.Machine

/-! ### The list operations -/

theorem Memory.lookup_remove_same (m : Memory) (a : Nat) :
    Memory.lookup (Memory.remove m a) a = unlistedByte a := by
  induction m with
  | nil => rfl
  | cons c rest ih =>
    by_cases h : c.1 = a
    · simpa [Memory.remove, h] using ih
    · simpa [Memory.remove, Memory.lookup, h] using ih

theorem Memory.lookup_remove_ne (m : Memory) {a b : Nat} (h : b ≠ a) :
    Memory.lookup (Memory.remove m a) b = Memory.lookup m b := by
  induction m with
  | nil => rfl
  | cons c rest ih =>
    simp only [Memory.remove] at ih
    by_cases hc : c.1 = a
    · have hb : ¬ a = b := fun e => h e.symm
      simpa [Memory.remove, Memory.lookup, hc, hb] using ih
    · simp [Memory.remove, Memory.lookup, hc, ih]

theorem Memory.lookup_insert_ne (m : Memory) {a k : Nat} (b : Byte) (h : k ≠ a) :
    Memory.lookup (Memory.insert m a b) k = Memory.lookup m k := by
  have hk : ¬ a = k := fun e => h e.symm
  induction m with
  | nil => simp [Memory.insert, Memory.lookup, hk]
  | cons c rest ih =>
    by_cases hc : a < c.1
    · simp [Memory.insert, Memory.lookup, hc, hk]
    · simp [Memory.insert, Memory.lookup, hc, ih]

theorem Memory.lookup_insert_same (m : Memory) (a : Nat) (b : Byte) (h : ∀ c ∈ m, c.1 ≠ a) :
    Memory.lookup (Memory.insert m a b) a = b := by
  induction m with
  | nil => simp [Memory.insert, Memory.lookup]
  | cons c rest ih =>
    have hc : c.1 ≠ a := h c (by simp)
    have := ih fun d hd => h d (by simp [hd])
    by_cases hl : a < c.1
    · simp [Memory.insert, Memory.lookup, hl]
    · simpa [Memory.insert, Memory.lookup, hl, hc] using this

theorem Memory.mem_remove {m : Memory} {a : Nat} {c : Host.Cell} :
    c ∈ Memory.remove m a ↔ c ∈ m ∧ c.1 ≠ a := by
  simp [Memory.remove]

theorem Memory.mem_insert {m : Memory} {a : Nat} {b : Byte} {c : Host.Cell} :
    c ∈ Memory.insert m a b ↔ c = (a, b) ∨ c ∈ m := by
  induction m with
  | nil => simp [Memory.insert]
  | cons d rest ih =>
    by_cases h : a < d.1
    · simp [Memory.insert, h]
    · simp only [Memory.insert, h, if_false, List.mem_cons, ih]
      tauto

/-! ### One byte -/

/-- Everything a write of one byte does to the reads after it (R61, R68): the address written reads as
the byte written, every other address as before. -/
theorem Memory.readByte_writeByte (m : Memory) (a q : Nat) (b : Byte) :
    Memory.readByte (Memory.writeByte m a b) q =
      if q % memSize = a % memSize then b else Memory.readByte m q := by
  unfold Memory.readByte Memory.writeByte
  by_cases h : q % memSize = a % memSize
  · rw [if_pos h, h]
    by_cases hb : b = unlistedByte (a % memSize)
    · simp only [hb, if_true, Memory.lookup_remove_same]
    · simp only [hb, if_false]
      exact Memory.lookup_insert_same _ _ _ fun c hc => (Memory.mem_remove.mp hc).2
  · rw [if_neg h]
    by_cases hb : b = unlistedByte (a % memSize)
    · simp only [hb, if_true, Memory.lookup_remove_ne m h]
    · simp only [hb, if_false, Memory.lookup_insert_ne _ b h, Memory.lookup_remove_ne m h]

@[simp] theorem Memory.readByte_nil (q : Nat) : Memory.readByte [] q = unlistedByte (q % memSize) := rfl

@[simp] theorem Memory.readByte_mod (m : Memory) (q : Nat) :
    Memory.readByte m (q % memSize) = Memory.readByte m q := by
  simp [Memory.readByte]

/-! ### Rows of bytes -/

/-- Everything a store of bytes does to the reads after it (R61, R63): an address that is the k-th of
the stored ones reads as the k-th byte, every other address as before. The row fits the address
space, so no address is stored twice. -/
theorem Memory.readByte_writeBytes_ne (m : Memory) (a q : Nat) (bs : List Byte)
    (h : ∀ k < bs.length, q % memSize ≠ (a + k) % memSize) :
    Memory.readByte (Memory.writeBytes m a bs) q = Memory.readByte m q := by
  induction bs generalizing m a with
  | nil => rfl
  | cons b rest ih =>
    rw [Memory.writeBytes, ih, Memory.readByte_writeByte, if_neg (by simpa using h 0 (by simp))]
    intro k hk
    have := h (k + 1) (by simpa using hk)
    rwa [show a + (k + 1) = a + 1 + k by omega] at this

theorem Memory.readByte_writeBytes_at (m : Memory) (a k : Nat) (bs : List Byte)
    (hk : k < bs.length) (hfit : bs.length ≤ memSize) :
    Memory.readByte (Memory.writeBytes m a bs) (a + k) = bs[k] := by
  induction bs generalizing m a k with
  | nil => simp at hk
  | cons b rest ih =>
    rw [List.length_cons] at hk hfit
    cases k with
    | zero =>
      rw [Nat.add_zero, Memory.writeBytes, Memory.readByte_writeBytes_ne, Memory.readByte_writeByte,
        if_pos rfl]
      · rfl
      · intro k hk
        unfold memSize at *
        omega
    | succ k =>
      rw [Memory.writeBytes, show a + (k + 1) = a + 1 + k by omega]
      rw [ih _ _ _ (by omega) (by omega)]
      rfl

/-! ### The canonical form -/

theorem Memory.wf_nil : Memory.wf [] := by simp [Memory.wf]

theorem Memory.wf_remove {m : Memory} (h : Memory.wf m) (a : Nat) : Memory.wf (Memory.remove m a) :=
  ⟨h.1.filter _, fun c hc => h.2 c (Memory.mem_remove.mp hc).1⟩

theorem Memory.pairwise_insert {m : Memory} (h : m.Pairwise (fun c d => c.1 < d.1)) (a : Nat) (b : Byte)
    (ha : ∀ c ∈ m, c.1 ≠ a) : (Memory.insert m a b).Pairwise (fun c d => c.1 < d.1) := by
  induction m with
  | nil => simp [Memory.insert]
  | cons c rest ih =>
    obtain ⟨hc, hrest⟩ := List.pairwise_cons.mp h
    by_cases hl : a < c.1
    · simp only [Memory.insert, hl, if_true]
      refine List.pairwise_cons.mpr ⟨fun d hd => ?_, h⟩
      rcases List.mem_cons.mp hd with rfl | hd
      · exact hl
      · exact Nat.lt_trans hl (hc d hd)
    · simp only [Memory.insert, hl, if_false]
      refine List.pairwise_cons.mpr ⟨fun d hd => ?_, ih hrest fun d hd => ha d (by simp [hd])⟩
      rcases Memory.mem_insert.mp hd with rfl | hd
      · have := ha c (by simp)
        simp only
        omega
      · exact hc d hd

/-- A write keeps the canonical form. -/
theorem Memory.wf_writeByte {m : Memory} (h : Memory.wf m) (a : Nat) (b : Byte) :
    Memory.wf (Memory.writeByte m a b) := by
  unfold Memory.writeByte
  have hr := Memory.wf_remove h (a % memSize)
  by_cases hb : b = unlistedByte (a % memSize)
  · simpa only [hb, if_true] using hr
  · simp only [hb, if_false]
    refine ⟨Memory.pairwise_insert hr.1 _ _ fun c hc => (Memory.mem_remove.mp hc).2, fun c hc => ?_⟩
    rcases Memory.mem_insert.mp hc with rfl | hc
    · exact ⟨Nat.mod_lt _ (by decide), hb⟩
    · exact hr.2 c hc

/-- A store of bytes keeps the canonical form. -/
theorem Memory.wf_writeBytes {m : Memory} (h : Memory.wf m) (a : Nat) (bs : List Byte) :
    Memory.wf (Memory.writeBytes m a bs) := by
  induction bs generalizing m a with
  | nil => exact h
  | cons b rest ih => exact ih (Memory.wf_writeByte h a b) (a + 1)

/-- The reset memory has the canonical form. -/
theorem State.reset_mem_wf : Memory.wf State.reset.mem := Memory.wf_nil

/-- In the canonical form, memories that read alike at every address are one list. -/
theorem Memory.lookup_of_lt {m : Memory} {a : Nat} (h : ∀ c ∈ m, a < c.1) :
    Memory.lookup m a = unlistedByte a := by
  induction m with
  | nil => rfl
  | cons c rest ih =>
    have hc : ¬ c.1 = a := by have := h c (by simp); omega
    simpa [Memory.lookup, hc] using ih fun d hd => h d (by simp [hd])

theorem Memory.eq_of_lookup_eq {m m' : Memory} (h : Memory.wf m) (h' : Memory.wf m')
    (he : ∀ a, Memory.lookup m a = Memory.lookup m' a) : m = m' := by
  induction m generalizing m' with
  | nil =>
    cases m' with
    | nil => rfl
    | cons d rest' =>
      exact absurd (by simpa [Memory.lookup] using (he d.1).symm) (h'.2 d (by simp)).2
  | cons c rest ih =>
    obtain ⟨hc, hrest⟩ := List.pairwise_cons.mp h.1
    have hcv := (h.2 c (by simp)).2
    cases m' with
    | nil => exact absurd (by simpa [Memory.lookup] using he c.1) hcv
    | cons d rest' =>
      obtain ⟨hd, hrest'⟩ := List.pairwise_cons.mp h'.1
      have hdv := (h'.2 d (by simp)).2
      have hkey : c.1 = d.1 := by
        rcases Nat.lt_trichotomy c.1 d.1 with hlt | heq | hgt
        · refine absurd ?_ hcv
          have he' := he c.1
          have hm' : Memory.lookup (d :: rest') c.1 = unlistedByte c.1 :=
            Memory.lookup_of_lt fun e hmem => by
              rcases List.mem_cons.mp hmem with rfl | hmem
              · exact hlt
              · exact Nat.lt_trans hlt (hd e hmem)
          rw [hm'] at he'; simpa [Memory.lookup] using he'
        · exact heq
        · refine absurd ?_ hdv
          have he' := he d.1
          have hm : Memory.lookup (c :: rest) d.1 = unlistedByte d.1 :=
            Memory.lookup_of_lt fun e hmem => by
              rcases List.mem_cons.mp hmem with rfl | hmem
              · exact hgt
              · exact Nat.lt_trans hgt (hc e hmem)
          rw [hm] at he'; simpa [Memory.lookup] using he'.symm
      have hval : c.2 = d.2 := by simpa [Memory.lookup, hkey] using he c.1
      have hrec : rest = rest' := by
        refine ih ⟨hrest, fun e he' => h.2 e (by simp [he'])⟩ ⟨hrest', fun e he' => h'.2 e (by simp [he'])⟩ ?_
        intro a
        by_cases ha : c.1 = a
        · subst ha
          rw [Memory.lookup_of_lt hc, Memory.lookup_of_lt (by rw [hkey]; exact hd)]
        · have := he a
          simpa [Memory.lookup, ha, hkey ▸ ha] using this
      rw [hrec, Prod.ext hkey hval]

/-! ### The state's readers and writers -/

@[simp] theorem State.readMem_mod (s : State) (q : Nat) : s.readMem (q % memSize) = s.readMem q :=
  Memory.readByte_mod s.mem q

theorem State.readMem_writeMem (s : State) (a q : Nat) (b : Byte) :
    (s.writeMem a b).readMem q = if q % memSize = a % memSize then b else s.readMem q :=
  Memory.readByte_writeByte s.mem a q b

theorem State.readMem_writeMemBytes_ne (s : State) (a q : Nat) (bs : List Byte)
    (h : ∀ k < bs.length, q % memSize ≠ (a + k) % memSize) :
    (s.writeMemBytes a bs).readMem q = s.readMem q :=
  Memory.readByte_writeBytes_ne s.mem a q bs h

theorem State.readMem_writeMemBytes_at (s : State) (a k : Nat) (bs : List Byte)
    (hk : k < bs.length) (hfit : bs.length ≤ memSize) :
    (s.writeMemBytes a bs).readMem (a + k) = bs[k] :=
  Memory.readByte_writeBytes_at s.mem a k bs hk hfit

end Sys2Proof.Machine
end

