-- ==== Sys2Proof/Laws/PerInstr.lean ====
section
/-! SUPPORT. A family of lemmas over the instructions, one per constructor: the word the encoder writes
fits the mask and match of the instruction's row of the opcode map (spec 30_encoding.md R84). -/

namespace Sys2Proof.Laws

/-! ### Masks meet words field by field -/

theorem and_wordOpNNN (a c : Nibble) (b d : Addr12) :
    wordOpNNN a b &&& wordOpNNN c d = wordOpNNN (a &&& c) (b &&& d) :=
  BitVec.and_append

theorem and_wordOpXKK (a b c d : Nibble) (k l : Byte) :
    wordOpXKK a b k &&& wordOpXKK c d l = wordOpXKK (a &&& c) (b &&& d) (k &&& l) :=
  (@BitVec.and_append 8 8 (a ++ b) (c ++ d) k l).trans
    (congrArg (· ++ (k &&& l)) (@BitVec.and_append 4 4 a c b d))

theorem and_wordOpXYN (a b e f c d g h : Nibble) :
    wordOpXYN a b e f &&& wordOpXYN c d g h =
      wordOpXYN (a &&& c) (b &&& d) (e &&& g) (f &&& h) := by
  have upper := @BitVec.and_append 4 4 a c b d
  have middle := @BitVec.and_append 8 4 (a ++ b) (c ++ d) e g
  exact (@BitVec.and_append 12 4 (a ++ b ++ e) (c ++ d ++ g) f h).trans
    (congrArg (· ++ (f &&& h)) (middle.trans (congrArg (· ++ (e &&& g)) upper)))

/-- Mask F000 keeps op of a word of op and nnn. -/
theorem opNNN_masked (op : Nibble) (nnn : Addr12) :
    wordOpNNN op nnn &&& 0xF000 = wordOpNNN op 0 := by
  rw [show (0xF000 : Word) = wordOpNNN 0xF#4 0#12 by decide, and_wordOpNNN,
    show op &&& 0xF#4 = op from BitVec.and_allOnes, BitVec.and_zero]
  rfl

/-- Mask F000 keeps op of a word of op, x and kk. -/
theorem opXKK_masked (op x : Nibble) (kk : Byte) :
    wordOpXKK op x kk &&& 0xF000 = wordOpXKK op 0 0 := by
  rw [show (0xF000 : Word) = wordOpXKK 0xF#4 0#4 0#8 by decide, and_wordOpXKK,
    show op &&& 0xF#4 = op from BitVec.and_allOnes, BitVec.and_zero, BitVec.and_zero]
  rfl

/-- Mask F0FF keeps op and kk of a word of op, x and kk. -/
theorem opXKK_masked_kk (op x : Nibble) (kk : Byte) :
    wordOpXKK op x kk &&& 0xF0FF = wordOpXKK op 0 kk := by
  rw [show (0xF0FF : Word) = wordOpXKK 0xF#4 0#4 0xFF#8 by decide, and_wordOpXKK,
    show op &&& 0xF#4 = op from BitVec.and_allOnes,
    show kk &&& 0xFF#8 = kk from BitVec.and_allOnes, BitVec.and_zero]
  rfl

/-- Mask F000 keeps op of a word of op, x, y and n. -/
theorem opXYN_masked (op x y n : Nibble) :
    wordOpXYN op x y n &&& 0xF000 = wordOpXYN op 0 0 0 := by
  rw [show (0xF000 : Word) = wordOpXYN 0xF#4 0#4 0#4 0#4 by decide, and_wordOpXYN,
    show op &&& 0xF#4 = op from BitVec.and_allOnes, BitVec.and_zero, BitVec.and_zero, BitVec.and_zero]
  rfl

/-- Mask F00F keeps op and n of a word of op, x, y and n. -/
theorem opXYN_masked_n (op x y n : Nibble) :
    wordOpXYN op x y n &&& 0xF00F = wordOpXYN op 0 0 n := by
  rw [show (0xF00F : Word) = wordOpXYN 0xF#4 0#4 0#4 0xF#4 by decide, and_wordOpXYN,
    show op &&& 0xF#4 = op from BitVec.and_allOnes,
    show n &&& 0xF#4 = n from BitVec.and_allOnes, BitVec.and_zero, BitVec.and_zero]
  rfl

end Sys2Proof.Laws

namespace Sys2Proof.Laws.EncodeFitsRow

/-- The word of the instruction fits its row: `word & mask = match` (R84). -/
def Statement (i : Instr) : Prop := encode i &&& i.row.mask = i.row.value

theorem cls : Statement .cls := by
  show _ = _
  decide
theorem ret : Statement .ret := by
  show _ = _
  decide
theorem jp (nnn : Addr12) : Statement (.jp nnn) :=
  (opNNN_masked _ nnn).trans rfl
theorem call (nnn : Addr12) : Statement (.call nnn) :=
  (opNNN_masked _ nnn).trans rfl
theorem seImm (x : Nibble) (kk : Byte) : Statement (.seImm x kk) :=
  (opXKK_masked _ x kk).trans rfl
theorem sneImm (x : Nibble) (kk : Byte) : Statement (.sneImm x kk) :=
  (opXKK_masked _ x kk).trans rfl
theorem seReg (x y : Nibble) : Statement (.seReg x y) :=
  (opXYN_masked_n _ x y _).trans rfl
theorem ldImm (x : Nibble) (kk : Byte) : Statement (.ldImm x kk) :=
  (opXKK_masked _ x kk).trans rfl
theorem addImm (x : Nibble) (kk : Byte) : Statement (.addImm x kk) :=
  (opXKK_masked _ x kk).trans rfl
theorem ldReg (x y : Nibble) : Statement (.ldReg x y) :=
  (opXYN_masked_n _ x y _).trans rfl
theorem orReg (x y : Nibble) : Statement (.orReg x y) :=
  (opXYN_masked_n _ x y _).trans rfl
theorem andReg (x y : Nibble) : Statement (.andReg x y) :=
  (opXYN_masked_n _ x y _).trans rfl
theorem xorReg (x y : Nibble) : Statement (.xorReg x y) :=
  (opXYN_masked_n _ x y _).trans rfl
theorem addReg (x y : Nibble) : Statement (.addReg x y) :=
  (opXYN_masked_n _ x y _).trans rfl
theorem sub (x y : Nibble) : Statement (.sub x y) :=
  (opXYN_masked_n _ x y _).trans rfl
theorem shr (x y : Nibble) : Statement (.shr x y) :=
  (opXYN_masked_n _ x y _).trans rfl
theorem subn (x y : Nibble) : Statement (.subn x y) :=
  (opXYN_masked_n _ x y _).trans rfl
theorem shl (x y : Nibble) : Statement (.shl x y) :=
  (opXYN_masked_n _ x y _).trans rfl
theorem sneReg (x y : Nibble) : Statement (.sneReg x y) :=
  (opXYN_masked_n _ x y _).trans rfl
theorem ldI (nnn : Addr12) : Statement (.ldI nnn) :=
  (opNNN_masked _ nnn).trans rfl
theorem jpV0 (nnn : Addr12) : Statement (.jpV0 nnn) :=
  (opNNN_masked _ nnn).trans rfl
theorem rnd (x : Nibble) (kk : Byte) : Statement (.rnd x kk) :=
  (opXKK_masked _ x kk).trans rfl
theorem drw (x y n : Nibble) : Statement (.drw x y n) :=
  (opXYN_masked _ x y n).trans rfl
theorem skp (x : Nibble) : Statement (.skp x) :=
  (opXKK_masked_kk _ x _).trans rfl
theorem sknp (x : Nibble) : Statement (.sknp x) :=
  (opXKK_masked_kk _ x _).trans rfl
theorem ldVxDT (x : Nibble) : Statement (.ldVxDT x) :=
  (opXKK_masked_kk _ x _).trans rfl
theorem ldVxK (x : Nibble) : Statement (.ldVxK x) :=
  (opXKK_masked_kk _ x _).trans rfl
theorem ldDTVx (x : Nibble) : Statement (.ldDTVx x) :=
  (opXKK_masked_kk _ x _).trans rfl
theorem ldSTVx (x : Nibble) : Statement (.ldSTVx x) :=
  (opXKK_masked_kk _ x _).trans rfl
theorem addI (x : Nibble) : Statement (.addI x) :=
  (opXKK_masked_kk _ x _).trans rfl
theorem ldF (x : Nibble) : Statement (.ldF x) :=
  (opXKK_masked_kk _ x _).trans rfl
theorem ldB (x : Nibble) : Statement (.ldB x) :=
  (opXKK_masked_kk _ x _).trans rfl
theorem ldMemVx (x : Nibble) : Statement (.ldMemVx x) :=
  (opXKK_masked_kk _ x _).trans rfl
theorem ldVxMem (x : Nibble) : Statement (.ldVxMem x) :=
  (opXKK_masked_kk _ x _).trans rfl

end Sys2Proof.Laws.EncodeFitsRow
end

