-- ==== Sys2Proof/Laws/Registers.lean ====
section
/-! SUPPORT. The laws of the register file, the flag writes, the program counter, the stack, the keypad
and the random input: one lemma for everything each shared operation can do. -/

namespace Sys2Proof.Machine

/-! ### V0-VF (R20) -/

/-- Everything a register write does to the register reads after it. -/
theorem State.getV_setV (s : State) (x r : Nibble) (b : Byte) :
    (s.setV x b).getV r = if r = x then b else s.getV r := by
  have hrx : x.toNat = r.toNat ↔ r = x := by
    constructor
    · exact fun h => (BitVec.eq_of_toNat_eq h).symm
    · rintro rfl; rfl
  simp only [State.getV, State.setV, Vector.get_eq_getElem, BitVec.val_toFin, Vector.getElem_set, hrx]

@[simp] theorem State.getV_setV_same (s : State) (x : Nibble) (b : Byte) : (s.setV x b).getV x = b := by
  simp [State.getV_setV]

theorem State.getV_setV_ne (s : State) {x r : Nibble} (b : Byte) (h : r ≠ x) :
    (s.setV x b).getV r = s.getV r := by
  simp [State.getV_setV, h]

/-- Everything a block load does to the register reads after it (R190): register k + j gets the j-th
byte, every other register keeps its value. -/
theorem State.getV_setVs (s : State) (k : Nat) (bs : List Byte) (r : Nibble)
    (hfit : k + bs.length ≤ 16) :
    (s.setVs k bs).getV r =
      if h : k ≤ r.toNat ∧ r.toNat < k + bs.length then bs[r.toNat - k]'(by omega) else s.getV r := by
  induction bs generalizing s k with
  | nil =>
    rw [dif_neg (by simp only [List.length_nil]; omega)]
    rfl
  | cons b rest ih =>
    simp only [List.length_cons] at hfit ⊢
    have hlt := r.isLt
    rw [State.setVs, ih _ (k + 1) (by omega)]
    by_cases h0 : r.toNat = k
    · have hr : r = BitVec.ofNat 4 k := by
        apply BitVec.eq_of_toNat_eq
        simp only [BitVec.toNat_ofNat]
        omega
      rw [dif_neg (by omega), dif_pos (by omega), ← hr, State.getV_setV_same]
      simp only [show r.toNat - k = 0 by omega, List.getElem_cons_zero]
    · have hr : r ≠ BitVec.ofNat 4 k := by
        rintro rfl
        simp only [BitVec.toNat_ofNat] at h0
        omega
      rw [State.getV_setV_ne _ _ hr]
      by_cases h1 : k + 1 ≤ r.toNat ∧ r.toNat < k + 1 + rest.length
      · rw [dif_pos h1, dif_pos (by omega)]
        have e : r.toNat - k = (r.toNat - (k + 1)) + 1 := by omega
        simp only [e, List.getElem_cons_succ]
      · rw [dif_neg h1, dif_neg (by omega)]

/-- A block load writes no part of the state but the registers. -/
theorem State.setVs_frame (s : State) (k : Nat) (bs : List Byte) :
    ∃ v, s.setVs k bs = { s with v := v } := by
  induction bs generalizing s k with
  | nil => exact ⟨s.v, rfl⟩
  | cons b rest ih =>
    obtain ⟨v, hv⟩ := ih (s.setV (BitVec.ofNat 4 k) b) (k + 1)
    exact ⟨v, by rw [State.setVs, hv]; rfl⟩

/-! ### Result and flag (R151) -/

/-- Everything a result and a flag written together do to the register reads after them: the two
orders differ in VF where x = F, and nowhere else. -/
theorem State.getV_writeFlagged (s : State) (x r : Nibble) (res f : Byte) :
    (s.writeFlagged x res f).getV r =
      if r = x ∧ (x = vF → s.config.flagOrder = .flagThenResult) then res
      else if r = vF then f else s.getV r := by
  unfold State.writeFlagged
  by_cases hx : r = x <;> by_cases hv : r = vF <;> cases hf : s.config.flagOrder <;>
    simp_all [State.getV_setV]

/-- A flagged write changes no part of the state but the registers. -/
theorem State.writeFlagged_frame (s : State) (x : Nibble) (res f : Byte) :
    ∃ v, s.writeFlagged x res f = { s with v := v } := by
  unfold State.writeFlagged
  cases s.config.flagOrder <;> exact ⟨_, rfl⟩

theorem flagByte_eq_one {b : Bool} : flagByte b = 1#8 ↔ b = true := by cases b <;> decide

theorem flagByte_eq_zero {b : Bool} : flagByte b = 0#8 ↔ b = false := by cases b <;> decide

/-! ### The program counter (R26) -/

/-- Everything a write of pc does to pc. -/
theorem State.toNat_jump_pc (s : State) (n : Nat) : (s.jump n).pc.toNat = n % memSize := by
  have : n % memSize < memSize := Nat.mod_lt _ (by decide)
  simp only [State.jump_pc, BitVec.toNat_ofNat]
  unfold memSize at *
  omega

theorem State.toNat_advance_pc (s : State) : s.advance.pc.toNat = (s.pc.toNat + 2) % memSize :=
  State.toNat_jump_pc s _

theorem State.toNat_skipIf_pc (s : State) (c : Bool) :
    (s.skipIf c).pc.toNat = (s.pc.toNat + if c then 4 else 2) % memSize :=
  State.toNat_jump_pc s _

/-! ### The call stack (R32, R33) -/

/-- Everything a push can do: it answers exactly where sp names an entry. -/
theorem State.pushStack_eq_some {s s' : State} {ret : Nat} :
    s.pushStack ret = some s' ↔
      ∃ h : s.sp.toNat < stackDepth,
        s' = { s with
          stack := s.stack.set s.sp.toNat (BitVec.ofNat 16 (ret % memSize)) h, sp := s.sp + 1 } := by
  unfold State.pushStack
  by_cases h : s.sp.toNat < stackDepth <;> simp [h, eq_comm]

/-- Everything a pop can do: it answers exactly where sp − 1 names an entry. -/
theorem State.popStack_eq_some {s s' : State} {t : Word} :
    s.popStack = some (t, s') ↔
      ∃ h : s.sp.toNat - 1 < stackDepth, t = s.stack[s.sp.toNat - 1] ∧ s' = { s with sp := s.sp - 1 } := by
  unfold State.popStack
  by_cases h : s.sp.toNat - 1 < stackDepth <;> simp [h, eq_comm]

/-! ### The keypad and the random input -/

/-- Everything the key scan can answer (R212): the lowest pressed key, or none where no key is
pressed. -/
theorem State.firstKey_eq_some {s : State} {k : Nat} :
    s.firstKey = some k ↔ k < 16 ∧ s.key k = true ∧ ∀ j < k, s.key j = false := by
  unfold State.firstKey
  rw [List.find?_range_eq_some]
  simp only [List.mem_range, Bool.not_eq_true']
  tauto

theorem State.firstKey_eq_none {s : State} :
    s.firstKey = none ↔ ∀ k < 16, s.key k = false := by
  simp [State.firstKey, List.find?_eq_none]

/-- Everything a draw can answer (R13): the byte lined up first, or the free value of this draw. -/
theorem State.randByte_cons {s : State} {b : Byte} {rest : List Byte} (h : s.randomInput = b :: rest) :
    s.randByte = b := by
  simp [State.randByte, h]

theorem State.randByte_nil {s : State} (h : s.randomInput = []) :
    s.randByte = Config.freeRandomByte s.randomCount := by
  simp [State.randByte, h]

/-! ### Faults and unknown opcodes (R302, R304) -/

theorem State.unknownOpcode_fault {s : State} (h : s.config.unknownOpcodePolicy = .fault) :
    s.unknownOpcode = s.raise .unknownOpcode := by
  simp [State.unknownOpcode, h]

theorem State.unknownOpcode_skip {s : State} (h : s.config.unknownOpcodePolicy = .skip) :
    s.unknownOpcode = s.traceUnknown.advance := by
  simp [State.unknownOpcode, h]

/-- Everything an unknown opcode can do. -/
theorem State.unknownOpcode_cases (s : State) :
    (s.config.unknownOpcodePolicy = .fault ∧ s.unknownOpcode = s.raise .unknownOpcode) ∨
    (s.config.unknownOpcodePolicy = .skip ∧ s.unknownOpcode = s.traceUnknown.advance) := by
  cases h : s.config.unknownOpcodePolicy
  · exact .inl ⟨rfl, State.unknownOpcode_fault h⟩
  · exact .inr ⟨rfl, State.unknownOpcode_skip h⟩

/-! ### Operands -/

theorem State.length_regsUpTo (s : State) (x : Nibble) : (s.regsUpTo x).length = x.toNat + 1 := by
  simp [State.regsUpTo]

theorem State.getElem_regsUpTo (s : State) (x : Nibble) (k : Nat) (h : k < (s.regsUpTo x).length) :
    (s.regsUpTo x)[k] = s.getV (BitVec.ofNat 4 k) := by
  simp [State.regsUpTo]

theorem State.length_bytesAtI (s : State) (n : Nat) : (s.bytesAtI n).length = n := by
  simp [State.bytesAtI]

theorem State.getElem_bytesAtI (s : State) (n k : Nat) (h : k < (s.bytesAtI n).length) :
    (s.bytesAtI n)[k] = s.readMem (s.addrI k) := by
  simp [State.bytesAtI]

/-- A countdown by one, floored at zero (R320). -/
theorem toNat_countDown (t : Byte) : (countDown t).toNat = t.toNat - 1 := by
  have := t.isLt
  unfold countDown
  by_cases h : t = 0#8
  · simp [h]
  · have h' : t.toNat ≠ 0 := fun e => h (BitVec.eq_of_toNat_eq e)
    rw [if_neg h, BitVec.toNat_sub]
    simp
    omega

end Sys2Proof.Machine
end

