-- ==== Sys2Proof/Laws/Step.lean ====
section
/-! SUPPORT. What a STEP can do (spec 30_encoding.md R80, 60_exceptions.md R302, R304). -/

namespace Sys2Proof.Machine

/-- The CORE is halted exactly when FAULT_CODE ≠ 0 (R40). -/
theorem State.halted_iff (s : State) : s.halted = true ↔ s.faultCode ≠ 0#8 := by
  simp only [State.halted, bne_iff_ne]

theorem State.not_halted_iff (s : State) : s.halted = false ↔ s.faultCode = 0#8 := by
  simp only [State.halted, bne_eq_false_iff_eq]

/-- Everything a STEP can be: nothing in a halted CORE, an instruction's meaning, or an unknown
opcode. -/
theorem step_cases (s : State) :
    (s.faultCode ≠ 0#8 ∧ step s = .next s) ∨
    (s.faultCode = 0#8 ∧ ∃ i rest, decode s.fetchBytes = .ok (i, rest) ∧ step s = exec i s.fetched) ∨
    (s.faultCode = 0#8 ∧ (∃ e, decode s.fetchBytes = .error e) ∧
      step s = .next s.fetched.unknownOpcode) := by
  unfold step
  by_cases h : s.faultCode = 0#8
  · rw [(State.not_halted_iff s).mpr h, if_neg (by decide)]
    cases hd : decode s.fetchBytes with
    | ok p => exact .inr (.inl ⟨h, p.1, p.2, rfl, rfl⟩)
    | error e => exact .inr (.inr ⟨h, ⟨e, rfl⟩, rfl⟩)
  · rw [(State.halted_iff s).mpr h, if_pos rfl]
    exact .inl ⟨h, rfl⟩

/-- The bytes the fetch reads are the bytes of the word it latches. -/
theorem State.decode_fetchBytes (s : State) :
    decode s.fetchBytes =
      match decodeWord s.fetchWord with
      | .ok i => .ok (i, [])
      | .error e => .error e := rfl

end Sys2Proof.Machine
end

