-- ==== Sys2Proof/Tests/Slice0.lean ====
section
/-! SUPPORT. Tests of the model against the spec's own vectors (spec 95_test_vectors.md L1, L2), and for
every obligation with hypotheses a witness that meets them. -/

namespace Sys2Proof.Tests

open Sys2Proof Sys2Proof.Machine

-- One theorem after another: the many small kernel checks need no thread each.
set_option Elab.async false

/-! ### Decoding: each row's word, written out from its encoding in opcode_table.json -/

theorem test_decode_cls : decodeTableWord 16 0b0000000011100000 = some .cls := by decide
theorem test_decode_ret : decodeTableWord 16 0b0000000011101110 = some .ret := by decide
theorem test_decode_jp : decodeTableWord 16 0b0001101010111100 = some (.jp 0xABC) := by decide
theorem test_decode_call : decodeTableWord 16 0b0010101010111100 = some (.call 0xABC) := by decide
theorem test_decode_se_imm : decodeTableWord 16 0b0011010111000011 = some (.seImm 0x5 0xC3) := by decide
theorem test_decode_sne_imm : decodeTableWord 16 0b0100010111000011 = some (.sneImm 0x5 0xC3) := by decide
theorem test_decode_se_reg : decodeTableWord 16 0b0101000100100000 = some (.seReg 0x1 0x2) := by decide
theorem test_decode_ld_imm : decodeTableWord 16 0b0110010111000011 = some (.ldImm 0x5 0xC3) := by decide
theorem test_decode_add_imm : decodeTableWord 16 0b0111010111000011 = some (.addImm 0x5 0xC3) := by decide
theorem test_decode_ld_reg : decodeTableWord 16 0b1000000100100000 = some (.ldReg 0x1 0x2) := by decide
theorem test_decode_or : decodeTableWord 16 0b1000000100100001 = some (.orReg 0x1 0x2) := by decide
theorem test_decode_and : decodeTableWord 16 0b1000000100100010 = some (.andReg 0x1 0x2) := by decide
theorem test_decode_xor : decodeTableWord 16 0b1000000100100011 = some (.xorReg 0x1 0x2) := by decide
theorem test_decode_add_reg : decodeTableWord 16 0b1000000100100100 = some (.addReg 0x1 0x2) := by decide
theorem test_decode_sub : decodeTableWord 16 0b1000000100100101 = some (.sub 0x1 0x2) := by decide
theorem test_decode_shr : decodeTableWord 16 0b1000000100100110 = some (.shr 0x1 0x2) := by decide
theorem test_decode_subn : decodeTableWord 16 0b1000000100100111 = some (.subn 0x1 0x2) := by decide
theorem test_decode_shl : decodeTableWord 16 0b1000000100101110 = some (.shl 0x1 0x2) := by decide
theorem test_decode_sne_reg : decodeTableWord 16 0b1001000100100000 = some (.sneReg 0x1 0x2) := by decide
theorem test_decode_ld_i : decodeTableWord 16 0b1010101010111100 = some (.ldI 0xABC) := by decide
theorem test_decode_jp_v0 : decodeTableWord 16 0b1011101010111100 = some (.jpV0 0xABC) := by decide
theorem test_decode_rnd : decodeTableWord 16 0b1100010111000011 = some (.rnd 0x5 0xC3) := by decide
theorem test_decode_drw : decodeTableWord 16 0b1101000100100011 = some (.drw 0x1 0x2 0x3) := by decide
theorem test_decode_skp : decodeTableWord 16 0b1110010110011110 = some (.skp 0x5) := by decide
theorem test_decode_sknp : decodeTableWord 16 0b1110010110100001 = some (.sknp 0x5) := by decide
theorem test_decode_ld_vx_dt : decodeTableWord 16 0b1111010100000111 = some (.ldVxDT 0x5) := by decide
theorem test_decode_ld_vx_k : decodeTableWord 16 0b1111010100001010 = some (.ldVxK 0x5) := by decide
theorem test_decode_ld_dt_vx : decodeTableWord 16 0b1111010100010101 = some (.ldDTVx 0x5) := by decide
theorem test_decode_ld_st_vx : decodeTableWord 16 0b1111010100011000 = some (.ldSTVx 0x5) := by decide
theorem test_decode_add_i : decodeTableWord 16 0b1111010100011110 = some (.addI 0x5) := by decide
theorem test_decode_ld_f : decodeTableWord 16 0b1111010100101001 = some (.ldF 0x5) := by decide
theorem test_decode_ld_b : decodeTableWord 16 0b1111010100110011 = some (.ldB 0x5) := by decide
theorem test_decode_ld_mem_vx : decodeTableWord 16 0b1111010101010101 = some (.ldMemVx 0x5) := by decide
theorem test_decode_ld_vx_mem : decodeTableWord 16 0b1111010101100101 = some (.ldVxMem 0x5) := by decide

/-- The unknown words of L2.6 are refused, each by its group's name. -/
theorem test_decode_unknown :
    [0x0000, 0x0123, 0x00E1, 0x00FF, 0x01E0, 0x00EF].map decodeWord =
      List.replicate 6 (.error .unknown0) ∧
    decodeWord 0x5121 = .error .unknown5 ∧ decodeWord 0x9121 = .error .unknown9 ∧
    decodeWord 0x8008 = .error .unknown8 ∧ decodeWord 0x800F = .error .unknown8 ∧
    decodeWord 0xE000 = .error .unknownE ∧ decodeWord 0xE19F = .error .unknownE ∧
    [0xF000, 0xF01F, 0xF0FF, 0xFFFF].map decodeWord = List.replicate 4 (.error .unknownF) := by decide

/-- Fewer than two bytes are no instruction, and bytes after the word are left over (R87). -/
theorem test_decode_length :
    decode [] = .error .truncated ∧ decode [0x12#8] = .error .truncated ∧
    decode [0x12#8, 0x34#8, 0x56#8] = .ok (.jp 0x234, [0x56#8]) := by decide

/-! ### Well-formedness -/

/-- The default configuration with HAS_SUBN. -/
def subnConfig : Config := { defaultConfig with hasSubn := true }

/-- The default configuration with UNKNOWN_OPCODE_POLICY = skip. -/
def skipConfig : Config := { defaultConfig with unknownOpcodePolicy := .skip }

/-- The one check of WellFormed: SUBN is ill-formed where HAS_SUBN is false, and well-formed where it is
true (L2.6's row 8017; R168). -/
theorem test_wellFormed_subn :
    (Instr.subn 0x0 0x1).wellFormed defaultConfig = false ∧
    (Instr.subn 0x0 0x1).wellFormed subnConfig = true ∧
    decodeFor defaultConfig 0x8017 = .error .subnAbsent ∧
    decodeFor subnConfig 0x8017 = .ok (.subn 0x0 0x1) := by decide

/-! ### One step each, from the vectors of L1 and L2 -/

/-- The reset state with a word at pc. -/
def running (w : Nat) : State := State.reset.withFetchWord 16 w

/-- The same under a configuration. -/
def runningWith (cfg : Config) (w : Nat) : State := { running w with config := cfg }

/-- Whether a step answers a next state of which `p` holds. -/
def stepTo (s : State) (p : State → Bool) : Bool :=
  match step s with
  | .next t => p t
  | .fault _ => false
  | .refused _ => false

/-- Whether an instruction answers a next state of which `p` holds. -/
def execTo (i : Instr) (s : State) (p : State → Bool) : Bool :=
  match exec i s with
  | .next t => p t
  | .fault _ => false
  | .refused _ => false

/-- Whether exactly the pixels of a list, given as column and row, are on. -/
def pixelsOn (t : State) (on : List (Nat × Nat)) : Bool :=
  (List.finRange 32).all fun y => (List.finRange 64).all fun x =>
    t.pixel x y == on.contains (x.val, y.val)

/-- L2.1. -/
theorem test_cls :
    stepTo ((running 0x00E0).setFB (Vector.replicate 32 0xFFFFFFFFFFFFFFFF#64))
      (fun t => t.fb == Vector.replicate 32 0 && t.pc == 0x202#16) = true := by decide +kernel

/-- L2.1: glyph 0 at the corner under `clip`. -/
theorem test_drw_clip :
    stepTo (((running 0xD015).setV 0x0 0x7E).setV 0x1 0x3E)
      (fun t => pixelsOn t [(62, 30), (63, 30), (62, 31)] && t.getV 0xF == 0 && t.pc == 0x202#16) =
      true := by decide +kernel

/-- L2.1: a collision, with the lit pixel turned off. -/
theorem test_drw_collision :
    stepTo ((((running 0xD011).setIndex 0x300).writeMem 0x300 0xC0).setFB
        (Framebuffer.flip Framebuffer.blank 1 0))
      (fun t => pixelsOn t [(0, 0)] && t.getV 0xF == 1) = true := by decide +kernel

/-- L2.2: the popped entry is kept. -/
theorem test_ret :
    stepTo { running 0x00EE with sp := 2, stack := (State.reset.stack.set 0 0x222).set 1 0x444 }
      (fun t => t.pc == 0x444#16 && t.sp == 1#5 && t.stack.get 1 == 0x444#16) = true := by decide +kernel

/-- L1.9. -/
theorem test_ret_underflow :
    stepTo (running 0x00EE) (fun t => t.faultCode == 3#8 && t.faultPC == 0x200#16 &&
      t.faultOpcode == 0x00EE#16 && t.pc == 0x200#16 && t.sp == 0#5) = true := by decide +kernel

/-- L2.2: an odd target. -/
theorem test_jp : stepTo (running 0x1201) (fun t => t.pc == 0x201#16) = true := by decide +kernel

/-- L2.2: the return address of a CALL at FFE wraps. -/
theorem test_call :
    stepTo (State.withFetchWord { State.reset with pc := 0xFFE } 16 0x2300)
      (fun t => t.stack.get 0 == 0#16 && t.sp == 1#5 && t.pc == 0x300#16) = true := by decide +kernel

/-- L2.2. -/
theorem test_call_overflow :
    stepTo { running 0x2200 with sp := 16 } (fun t => t.faultCode == 2#8 && t.faultPC == 0x200#16 &&
      t.faultOpcode == 0x2200#16 && t.sp == 16#5 && t.pc == 0x200#16) = true := by decide +kernel

/-- L2.2. -/
theorem test_se_imm :
    stepTo ((running 0x3310).setV 0x3 0x10) (fun t => t.pc == 0x204#16) = true ∧
    stepTo ((running 0x3311).setV 0x3 0x10) (fun t => t.pc == 0x202#16) = true := by decide +kernel

/-- L2.2. -/
theorem test_sne_imm :
    stepTo ((running 0x4311).setV 0x3 0x10) (fun t => t.pc == 0x204#16) = true ∧
    stepTo ((running 0x4310).setV 0x3 0x10) (fun t => t.pc == 0x202#16) = true := by decide +kernel

/-- L2.2. -/
theorem test_se_reg :
    stepTo (((running 0x5120).setV 0x1 0x42).setV 0x2 0x43) (fun t => t.pc == 0x202#16) = true ∧
    stepTo ((running 0x5110).setV 0x1 0x42) (fun t => t.pc == 0x204#16) = true := by decide +kernel

/-- L2.2. -/
theorem test_sne_reg :
    stepTo (((running 0x9120).setV 0x1 0x42).setV 0x2 0x43) (fun t => t.pc == 0x204#16) = true ∧
    stepTo ((running 0x9110).setV 0x1 0x42) (fun t => t.pc == 0x202#16) = true := by decide +kernel

/-- L2.2: V0 is used, not V5, and the sum wraps. -/
theorem test_jp_v0 :
    stepTo (((running 0xB5FF).setV 0x0 0x01).setV 0x5 0x80) (fun t => t.pc == 0x600#16) = true ∧
    stepTo ((running 0xBFF0).setV 0x0 0x20) (fun t => t.pc == 0x010#16) = true := by decide +kernel

/-- L2.3. -/
theorem test_ld_imm : stepTo ((running 0x6FAB).setV 0xF 0x77) (fun t => t.getV 0xF == 0xAB) = true := by
  decide +kernel

/-- L2.3: no carry flag. -/
theorem test_add_imm :
    stepTo (((running 0x70FF).setV 0x0 0xC3).setV 0xF 0x77)
      (fun t => t.getV 0x0 == 0xC2 && t.getV 0xF == 0x77) = true := by decide +kernel

/-- The start of L2.3's rows 8010-8013. -/
def logicStart (w : Nat) : State := (((running w).setV 0x0 0xC3).setV 0x1 0x5A).setV 0xF 0x77

/-- L2.3. -/
theorem test_ld_reg :
    stepTo (logicStart 0x8010) (fun t => t.getV 0x0 == 0x5A && t.getV 0xF == 0x77) = true := by
  decide +kernel

/-- L2.3. -/
theorem test_or :
    stepTo (logicStart 0x8011) (fun t => t.getV 0x0 == 0xDB && t.getV 0xF == 0x77) = true := by
  decide +kernel

/-- L2.3. -/
theorem test_and :
    stepTo (logicStart 0x8012) (fun t => t.getV 0x0 == 0x42 && t.getV 0xF == 0x77) = true := by
  decide +kernel

/-- L2.3. -/
theorem test_xor :
    stepTo (logicStart 0x8013) (fun t => t.getV 0x0 == 0x99 && t.getV 0xF == 0x77) = true := by
  decide +kernel

/-- L2.3: y = F reads the old VF. -/
theorem test_add_reg :
    stepTo (((running 0x80F4).setV 0x0 0x10).setV 0xF 0xFF)
      (fun t => t.getV 0x0 == 0x0F && t.getV 0xF == 0x01) = true := by decide +kernel

/-- L2.3: the destination is VF, under each FLAG_ORDER. -/
theorem test_add_reg_vf :
    stepTo (((running 0x8F14).setV 0xF 0xFF).setV 0x1 0x01) (fun t => t.getV 0xF == 0x00) = true ∧
    stepTo (((runningWith { defaultConfig with flagOrder := .resultThenFlag } 0x8F14).setV 0xF 0xFF).setV
      0x1 0x01) (fun t => t.getV 0xF == 0x01) = true := by decide +kernel

/-- L2.3 and L1.2. -/
theorem test_sub :
    stepTo (((running 0x8015).setV 0x0 0x01).setV 0x1 0x02)
      (fun t => t.getV 0x0 == 0xFF && t.getV 0xF == 0x00) = true ∧
    stepTo (((running 0x8015).setV 0x0 0x05).setV 0x1 0x05)
      (fun t => t.getV 0x0 == 0x00 && t.getV 0xF == 0x01) = true := by decide +kernel

/-- L2.3: V1 is ignored. -/
theorem test_shr :
    stepTo ((running 0x8016).setV 0x0 0x81) (fun t => t.getV 0x0 == 0x40 && t.getV 0xF == 0x01) =
      true := by decide +kernel

/-- L2.3. -/
theorem test_shl :
    stepTo ((running 0x801E).setV 0x0 0xC1) (fun t => t.getV 0x0 == 0x82 && t.getV 0xF == 0x01) =
      true := by decide +kernel

/-- L2.3. -/
theorem test_subn :
    stepTo (((runningWith subnConfig 0x8017).setV 0x0 0x05).setV 0x1 0x01)
      (fun t => t.getV 0x0 == 0xFC && t.getV 0xF == 0x00) = true := by decide +kernel

/-- L2.3: unknown where HAS_SUBN is false. -/
theorem test_subn_absent :
    stepTo (((running 0x8017).setV 0x0 0x01).setV 0x1 0x05)
      (fun t => t.faultCode == 1#8 && t.faultPC == 0x200#16 && t.getV 0x0 == 0x01 && t.pc == 0x200#16) =
      true := by decide +kernel

/-- L2.4. -/
theorem test_ld_i : stepTo (running 0xA123) (fun t => t.index == 0x0123#16) = true := by decide +kernel

/-- L2.4: VF is kept, or is the overflow above 0FFF. -/
theorem test_add_i :
    stepTo ((((running 0xF01E).setIndex 0xFFF).setV 0x0 0x01).setV 0xF 0xAA)
      (fun t => t.index == 0x1000#16 && t.getV 0xF == 0xAA) = true ∧
    stepTo ((((runningWith { defaultConfig with addISetsVF := true } 0xF01E).setIndex 0xFF0).setV 0x0
      0x0F).setV 0xF 0xAA) (fun t => t.index == 0x0FFF#16 && t.getV 0xF == 0x00) = true := by
  decide +kernel

/-- L2.4: the sum wraps at 2^16. -/
theorem test_add_i_wraps :
    stepTo (((running 0xF01E).setIndex 0xFFFF).setV 0x0 0x02) (fun t => t.index == 0x0001#16) = true := by
  decide +kernel

/-- L2.4. -/
theorem test_ld_f :
    stepTo ((running 0xF029).setV 0x0 0xFF) (fun t => t.index == 0x04FB#16) = true := by decide +kernel

/-- L1.6. -/
theorem test_ld_b :
    stepTo (((running 0xF033).setIndex 0x300).setV 0x0 0xEA)
      (fun t => t.readMem 0x300 == 2 && t.readMem 0x301 == 3 && t.readMem 0x302 == 4 &&
        t.index == 0x300#16) = true := by decide +kernel

/-- L2.4: the address wraps. -/
theorem test_ld_b_wraps :
    stepTo (((running 0xF033).setIndex 0xFFE).setV 0x0 0x7B)
      (fun t => t.readMem 0xFFE == 1 && t.readMem 0xFFF == 2 && t.readMem 0x000 == 3) = true := by
  decide +kernel

/-- L1.7: V4 is not stored. -/
theorem test_ld_mem_vx :
    stepTo (((running 0xF355).setIndex 0x300).setVs 0 [0x10, 0x11, 0x12, 0x13, 0x14])
      (fun t => [0x300, 0x301, 0x302, 0x303, 0x304].map t.readMem == [0x10, 0x11, 0x12, 0x13, 0x00] &&
        t.index == 0x300#16) = true := by decide +kernel

/-- L1.7: the addresses wrap, V4 is not loaded. -/
theorem test_ld_vx_mem :
    stepTo ((((State.withFetchWord { State.reset with pc := 0x300 } 16 0xF365).setIndex
        0xFFE).writeMemBytes 0xFFE [0xA0, 0xA1, 0xA2, 0xA3]).setV 0x4 0x99)
      (fun t => [0x0#4, 0x1#4, 0x2#4, 0x3#4, 0x4#4].map t.getV == [0xA0, 0xA1, 0xA2, 0xA3, 0x99] &&
        t.index == 0xFFE#16) = true := by decide +kernel

/-- L2.5, and the byte is used up. -/
theorem test_rnd :
    stepTo { running 0xC00F with randomInput := [0xAB, 0xFF] }
      (fun t => t.getV 0x0 == 0x0B && t.randomInput == [0xFF] && t.pc == 0x202#16) = true := by
  decide +kernel

/-- L2.5. -/
theorem test_skp :
    stepTo (((running 0xE59E).setKeys 0x0400).setV 0x5 0x0A) (fun t => t.pc == 0x204#16) = true ∧
    stepTo (((running 0xE59E).setKeys 0x0400).setV 0x5 0x0B) (fun t => t.pc == 0x202#16) = true := by
  decide +kernel

/-- L2.5. -/
theorem test_sknp :
    stepTo (((running 0xE5A1).setKeys 0x0400).setV 0x5 0x0A) (fun t => t.pc == 0x202#16) = true ∧
    stepTo (((running 0xE5A1).setKeys 0x0400).setV 0x5 0x0B) (fun t => t.pc == 0x204#16) = true := by
  decide +kernel

/-- L2.5. -/
theorem test_key_range :
    stepTo ((running 0xE59E).setV 0x5 0x10) (fun t => t.faultCode == 4#8 && t.pc == 0x200#16) = true ∧
    stepTo ((running 0xE5A1).setV 0x5 0xFF) (fun t => t.faultCode == 4#8 && t.pc == 0x200#16) = true := by
  decide +kernel

/-- L2.5. -/
theorem test_ld_vx_dt :
    stepTo ((running 0xF507).setDT 0x3C) (fun t => t.getV 0x5 == 0x3C) = true := by decide +kernel

/-- L2.5. -/
theorem test_ld_dt_vx :
    stepTo ((running 0xF515).setV 0x5 0x3C) (fun t => t.dt == 0x3C#8 && t.st == 0#8) = true := by
  decide +kernel

/-- L2.5. -/
theorem test_ld_st_vx : stepTo ((running 0xF518).setST 0x07) (fun t => t.st == 0#8) = true := by
  decide +kernel

/-- L2.5. -/
theorem test_ld_vx_k :
    stepTo ((running 0xF30A).setKeys 0x1008) (fun t => t.getV 0x3 == 0x03 && t.pc == 0x202#16) = true := by
  decide +kernel

/-- L2.5: with no key pressed the CORE waits. -/
theorem test_ld_vx_k_waits :
    stepTo ((running 0xF30A).setV 0x3 0x55)
      (fun t => t.getV 0x3 == 0x55 && t.pc == 0x200#16 && t.opcode == 0xF30A#16) = true := by
  decide +kernel

/-! ### The machine -/

/-- L2.6: an unknown word under either policy, and the saturation of UNK_COUNT. -/
theorem test_unknown_opcode :
    stepTo (running 0xFFFF) (fun t => t.faultCode == 1#8 && t.faultOpcode == 0xFFFF#16 &&
      t.pc == 0x200#16) = true ∧
    stepTo { runningWith skipConfig 0x00E1 with unkCount := 0xFFFF } (fun t => t.faultCode == 0#8 &&
      t.unkCount == 0xFFFF#16 && t.unkLastPC == 0x200#16 && t.unkLastOpcode == 0x00E1#16 &&
      t.pc == 0x202#16) = true := by decide +kernel

/-- L2.7: the fetch at FFF reads its second byte at 000. -/
theorem test_fetch_wraps :
    stepTo (State.withFetchWord { State.reset with pc := 0xFFF } 16 0x6123)
      (fun t => t.opcode == 0x6123#16 && t.getV 0x1 == 0x23 && t.pc == 0x001#16) = true := by
  decide +kernel

/-- L2.8 (the font's first and last glyph among R45's bytes). -/
theorem test_reset_memory :
    [0x000, 0x001, 0x004, 0x04B, 0x04F, 0x050, 0xFFF].map State.reset.readMem =
      [0xF0, 0x90, 0xF0, 0xF0, 0x80, 0x00, 0x00] ∧ Memory.wf State.reset.mem := by decide +kernel

/-- L2.5: TICK, floored, and applied while halted. -/
theorem test_tick :
    ((State.reset.setDT 0x02).setST 0x05).tick = (State.reset.setDT 0x01).setST 0x04 ∧
    (State.reset.setDT 0x01).tick = State.reset ∧
    ({ State.reset with faultCode := 0x02, dt := 0x03 } : State).tick.dt = 0x02#8 := by decide +kernel

/-- L1.8: the three steps of the source's own scenario. -/
theorem test_scenario :
    (match runEvents [.reset, .load [0x60, 0x05, 0x61, 0x03, 0x80, 0x14, 0x00, 0x00], .step, .step, .step]
        State.reset with
      | .next t => t.getV 0x0 == 0x08 && t.getV 0xF == 0x00 && t.pc == 0x206#16
      | .fault _ => false
      | .refused _ => false) = true := by decide +kernel

/-- R403: LOAD after RESET and before the first STEP. -/
theorem test_admitted :
    admitted false [.reset, .load [], .step, .tick] = true ∧ admitted false [.reset, .step, .load []] = false := by
  decide

/-! ### Witnesses: states and operands that meet the hypotheses of the obligations -/

/-- DecoderSelectsTheOneRow and EncodeOfDecode: a word that decodes and fits its row. -/
theorem witness_decoded_word :
    decodeWord 0x8014 = .ok (.addReg 0x0 0x1) ∧
    (0x8014 : Word) &&& (Instr.addReg 0x0 0x1).row.mask = (Instr.addReg 0x0 0x1).row.value := by decide

/-- UnknownWordsAreExactlyTheListed: a word of each kind, and words on the other side. -/
theorem witness_unknown_words :
    UnknownWord defaultConfig 0x0000 ∧ UnknownWord defaultConfig 0x5121 ∧ UnknownWord defaultConfig 0x9121 ∧
    UnknownWord defaultConfig 0x800F ∧ UnknownWord defaultConfig 0x8017 ∧ UnknownWord defaultConfig 0xE000 ∧
    UnknownWord defaultConfig 0xFFFF ∧ ¬ UnknownWord subnConfig 0x8017 ∧ ¬ UnknownWord defaultConfig 0x00E0 ∧
    ¬ UnknownWord defaultConfig 0xF065 := by
  simp [UnknownWord, defaultConfig, subnConfig]

/-- StepRunsTheDecodedInstruction and StepRunsTheEncodedInstruction, at the last address, where the second
byte is at 0. -/
theorem witness_step_runs :
    let s := State.withFetchWord { State.reset with pc := 0xFFF } 16 0x6123
    s.faultCode = 0#8 ∧
    decode [s.readMem s.pc.toNat, s.readMem (s.pc.toNat + 1)] = .ok (.ldImm 0x1 0x23, []) ∧
    s.readMem s.pc.toNat = highByte (encode (.ldImm 0x1 0x23)) ∧
    s.readMem (s.pc.toNat + 1) = lowByte (encode (.ldImm 0x1 0x23)) := by decide +kernel

/-- HaltedStepChangesNothing. -/
theorem witness_halted : (State.reset.raise .stackOverflow).faultCode ≠ 0#8 := by decide

/-- UnknownWordFaultsOrIsSkipped, under each policy. -/
theorem witness_unknown_step :
    (State.reset.faultCode = 0#8 ∧ State.reset.config.unknownOpcodePolicy = .fault ∧
      UnknownWord State.reset.config State.reset.fetchWord) ∧
    ((runningWith skipConfig 0x8017).faultCode = 0#8 ∧
      (runningWith skipConfig 0x8017).config.unknownOpcodePolicy = .skip ∧
      UnknownWord (runningWith skipConfig 0x8017).config (runningWith skipConfig 0x8017).fetchWord) := by
  rw [show State.reset.fetchWord = 0x0000#16 by decide +kernel,
    show (runningWith skipConfig 0x8017).fetchWord = 0x8017#16 by decide +kernel]
  simp [UnknownWord, State.reset, defaultConfig, runningWith, skipConfig, running, State.withFetchWord]

/-- A state away from reset: one call deep, with a byte stored and a word of its program at pc. -/
def busyState : State :=
  { (running 0xA123).setV 0x3 0x77 with sp := 1, stack := State.reset.stack.set 0 0x222 }

/-- StepKeepsTheInvariant and HostEventsKeepTheInvariant: a running state that meets the invariant, and
steps. -/
theorem witness_invariant :
    StateInv busyState ∧ stepTo busyState (fun _ => true) = true := by
  refine ⟨⟨?_, ?_, ?_, ?_, ?_, ?_, ?_, ?_, ?_⟩, ?_⟩ <;> decide +kernel

/-- The invariant's clauses for a halted state and for the policy `skip`. -/
theorem witness_invariant_halted :
    StateInv (State.reset.raise .stackUnderflow) ∧ StateInv { State.reset with config := skipConfig } := by
  constructor <;> refine ⟨?_, ?_, ?_, ?_, ?_, ?_, ?_, ?_, ?_⟩ <;> decide +kernel

/-- ReachableStatesAlwaysStep: a state one event after a reset. -/
theorem witness_reachable : Reachable ((State.resetWith subnConfig).setKeys 0x0001) :=
  .event (.keys 0x0001) (.reset subnConfig) rfl

/-- ModelStopsOnlyBeyondTheStack: the states the model stops in. -/
theorem witness_no_stack_entry :
    exec (.call 0x300) { State.reset with sp := 17 } = .fault .noStackEntry ∧
    exec .ret { State.reset with sp := 18 } = .fault .noStackEntry := ⟨rfl, rfl⟩

/-- InstructionsWriteOnlyTheirParts, RegistersAreWrittenOnlyAsListed, NextPcIsTheTables and
NoInstructionReadsTheSoundTimer: an instruction that answers a next state, with a register it does not
write, that is no Fx18. -/
theorem witness_instruction :
    exec (.ldImm 0x3 0x07) State.reset = .next (State.reset.setV 0x3 0x07).advance ∧
    ¬ WritesReg State.reset 0x4 (.ldImm 0x3 0x07) ∧ State.reset.pc.toNat < 4096 ∧
    ¬ ∃ x, Instr.ldImm 0x3 0x07 = .ldSTVx x := by
  refine ⟨rfl, ?_, by decide, by rintro ⟨x, h⟩; cases h⟩
  unfold WritesReg
  decide

/-- NoInstructionReadsTheSoundTimer: Fx18 itself. -/
theorem witness_ld_st :
    exec (.ldSTVx 0x3) State.reset = .next (State.reset.setST 0x00).advance ∧
    ∃ x, Instr.ldSTVx 0x3 = .ldSTVx x := ⟨rfl, 0x3, rfl⟩

/-- OnlyCallAndReturnReachTheStack, OnlyClearAndDrawReachTheScreen and OnlyTheKeysEventWritesTheKeypad: the
instructions each clause names answer a next state, CALL and RET at the bounds of sp, and so do events. -/
theorem witness_reach :
    execTo (.call 0x300) State.reset (fun _ => true) = true ∧
    execTo (.call 0x300) { State.reset with sp := 15 } (fun _ => true) = true ∧
    execTo .ret { State.reset with sp := 16 } (fun _ => true) = true ∧
    execTo .cls State.reset (fun _ => true) = true ∧
    execTo (.drw 0x0 0x1 0x5) State.reset (fun _ => true) = true ∧
    execTo (.skp 0x0) State.reset (fun _ => true) = true ∧
    execTo (.sknp 0x0) State.reset (fun _ => true) = true ∧
    execTo (.ldVxK 0x0) State.reset (fun _ => true) = true ∧
    execTo (.addImm 0x0 0x01) State.reset (fun _ => true) = true ∧
    applyEvent (.keys 0x8001) State.reset = .next (State.reset.setKeys 0x8001) ∧
    applyEvent .tick State.reset = .next State.reset.tick := by
  refine ⟨?_, ?_, ?_, ?_, ?_, ?_, ?_, ?_, ?_, rfl, rfl⟩ <;> decide +kernel

/-- FaultsAreExactlyTheListed: each cause and none, each with the next state. -/
theorem witness_raised :
    (raisedBy State.reset (.subn 0x0 0x1) = some .unknownOpcode ∧
      exec (.subn 0x0 0x1) State.reset = .next (State.reset.raise .unknownOpcode)) ∧
    (raisedBy { State.reset with sp := 16 } (.call 0x300) = some .stackOverflow ∧
      exec (.call 0x300) { State.reset with sp := 16 } =
        .next (State.raise { State.reset with sp := 16 } .stackOverflow)) ∧
    (raisedBy State.reset .ret = some .stackUnderflow ∧
      exec .ret State.reset = .next (State.reset.raise .stackUnderflow)) ∧
    (raisedBy (State.reset.setV 0x5 0x10) (.skp 0x5) = some .keyIndexRange ∧
      exec (.skp 0x5) (State.reset.setV 0x5 0x10) =
        .next ((State.reset.setV 0x5 0x10).raise .keyIndexRange)) ∧
    (raisedBy (State.reset.setV 0x5 0x0F) (.skp 0x5) = none ∧
      exec (.skp 0x5) (State.reset.setV 0x5 0x0F) = .next (State.reset.setV 0x5 0x0F).advance) :=
  ⟨⟨rfl, rfl⟩, ⟨rfl, rfl⟩, ⟨rfl, rfl⟩, ⟨rfl, rfl⟩, ⟨rfl, rfl⟩⟩

/-- DrawFlipsTheSpritesPixels: glyph 0 at (62, 30) lands on (63, 30), not on (63, 31) and, clipped, not on
(0, 30), on which it lands where SPRITE_EDGE is `wrap`. -/
theorem witness_sprite_bit :
    let s := (State.reset.setV 0x0 0x3E).setV 0x1 0x1E
    let w := State.setV { State.reset.setV 0x0 0x3E with
      config := { defaultConfig with spriteEdge := .wrap } } 0x1 0x1E
    SpriteBitLands s 0x0 0x1 0x5 63 30 ∧ ¬ SpriteBitLands s 0x0 0x1 0x5 63 31 ∧
    ¬ SpriteBitLands s 0x0 0x1 0x5 0 30 ∧ SpriteBitLands w 0x0 0x1 0x5 0 30 := by
  refine ⟨⟨0, 1, by decide, by decide, by decide +kernel, ⟨rfl, rfl⟩⟩, ?_, ?_,
    ⟨0, 2, by decide, by decide, by decide +kernel, ⟨rfl, rfl⟩⟩⟩
  · rintro ⟨r, c, -, hc, hbit, hx, hy⟩
    obtain rfl : c = 1 := by
      have : (62 : Nat) + c = 63 := hx
      omega
    obtain rfl : r = 1 := by
      have : (30 : Nat) + r = 31 := hy
      omega
    exact absurd hbit (by decide +kernel)
  · rintro ⟨r, c, -, hc, hbit, hx, hy⟩
    have : (62 : Nat) + c = 0 := hx
    omega

/-- DrawTwiceRestoresTheScreen: a first draw that keeps its place. -/
theorem witness_draw_twice :
    execTo (.drw 0x0 0x1 0x5) State.reset (fun t =>
      (t.getV 0x0).toNat % 64 == (State.reset.getV 0x0).toNat % 64 &&
      (t.getV 0x1).toNat % 32 == (State.reset.getV 0x1).toNat % 32) = true := by decide +kernel

/-- ReturnPopsOrUnderflows and CallPushesOrOverflows, at the bounds of each clause; also
ReturnResumesAfterTheCall. -/
theorem witness_stack_bounds :
    State.reset.sp = 0#5 ∧
    ({ State.reset with sp := 1 } : State).sp.toNat = (0 : Fin stackDepth).val + 1 ∧
    ({ State.reset with sp := 16 } : State).sp.toNat = (15 : Fin stackDepth).val + 1 ∧
    ({ State.reset with sp := 16 } : State).sp = 16#5 ∧
    State.reset.sp.toNat = (0 : Fin stackDepth).val ∧
    ({ State.reset with sp := 15 } : State).sp.toNat = (15 : Fin stackDepth).val ∧
    ({ State.reset with sp := 15 } : State).sp.toNat < 16 := by decide

/-- The configurations the statements about HAS_SUBN, ADD_I_SETS_VF, FLAG_ORDER and
UNKNOWN_OPCODE_POLICY speak of. -/
theorem witness_configurations :
    (runningWith subnConfig 0x8017).config.hasSubn = true ∧ State.reset.config.hasSubn = false ∧
    State.reset.config.unknownOpcodePolicy = .fault ∧
    (runningWith skipConfig 0x8017).config.hasSubn = false ∧
    (runningWith skipConfig 0x8017).config.unknownOpcodePolicy = .skip ∧
    State.reset.config.addISetsVF = false ∧ State.reset.config.flagOrder = .flagThenResult ∧
    (runningWith { defaultConfig with addISetsVF := true } 0).config.addISetsVF = true := by decide

/-- KeySkipsFollowTheKeypad and KeySkipsFaultBeyondTheKeypad at the bound between them. -/
theorem witness_key_index :
    ((State.reset.setV 0x5 0x0F).getV 0x5).toNat ≤ 0x0F ∧
    ((State.reset.setV 0x5 0x10).getV 0x5).toNat > 0x0F := by decide

/-- WaitForKeyStoresTheLowestKey, for the first key, the last key and none. -/
theorem witness_lowest_key :
    (State.reset.setKeys 0xFFFF).keys.getLsbD 0 = true ∧
    ((State.reset.setKeys 0x8000).keys.getLsbD 15 = true ∧
      ∀ j < 15, (State.reset.setKeys 0x8000).keys.getLsbD j = false) ∧
    State.reset.keys = 0#16 := by decide

/-- WaitForKeyWaitsAnyNumberOfSteps. -/
theorem witness_waiting :
    (running 0xF30A).faultCode = 0#8 ∧ (running 0xF30A).fetchWord = encode (.ldVxK 0x3) ∧
    (running 0xF30A).keys = 0#16 := by decide +kernel

/-- BlockLoadReadsBackTheStore: a state with the memory and index of the store, its registers cleared. -/
theorem witness_block_load_after_store :
    execTo (.ldMemVx 0x0) ((State.reset.setIndex 0x300).setV 0x0 0x11) (fun t =>
      (t.setV 0x0 0x00).index == t.index && (t.setV 0x0 0x00).mem == t.mem &&
      (t.setV 0x0 0x00).getV 0x0 != t.getV 0x0) = true := by decide +kernel

/-- LoadPlacesTheImage: the largest image, and one byte more. -/
theorem witness_image_sizes :
    (List.replicate 3584 0xAA#8).length ≤ 3584 ∧ (List.replicate 3585 0xAA#8).length > 3584 := by
  simp only [List.length_replicate]
  decide

end Sys2Proof.Tests
end

section
/-! The state's parts (spec 10_state.md): what RESET gives each of them, and who reaches the call stack
and the keypad. -/

namespace Sys2Proof.Machine

/-! ### RESET (R400) -/

@[simp] theorem State.getV_resetEvent (s : State) (r : Nibble) : s.resetEvent.getV r = 0#8 := by
  simp [State.getV, State.resetEvent, State.resetWith, State.reset, Vector.get_eq_getElem]

@[simp] theorem State.stack_resetEvent (s : State) (k : Fin stackDepth) :
    s.resetEvent.stack.get k = 0#16 := by
  simp [State.resetEvent, State.resetWith, State.reset, Vector.get_eq_getElem]

@[simp] theorem State.pixel_resetEvent (s : State) (x : Fin 64) (y : Fin 32) :
    s.resetEvent.pixel x y = false :=
  Framebuffer.pixel_blank x y

/-- Settles O58: the scalar parts by computation, the vectors entry by entry. -/
theorem resetZeroesTheMachine : Obligations.ResetZeroesTheMachine := by
  unfold Obligations.ResetZeroesTheMachine
  intro s
  exact ⟨s.resetEvent, rfl, State.getV_resetEvent s, rfl, rfl, rfl, State.stack_resetEvent s, rfl, rfl,
    State.pixel_resetEvent s⟩

/-! ### What CALL and RET do (R120, R122) -/

/-- Everything CALL can do where the model does not stop. -/
theorem exec_call_eq_next {nnn : Addr12} {s t : State} :
    exec (.call nnn) s = .next t ↔
      (s.sp = 16#5 ∧ t = s.raise .stackOverflow) ∨
      (s.sp ≠ 16#5 ∧ ∃ h : s.sp.toNat < stackDepth,
        t = State.jump { s with
          stack := s.stack.set s.sp.toNat (BitVec.ofNat 16 ((s.pc.toNat + 2) % memSize)) h
          sp := s.sp + 1 } nnn.toNat) := by
  show execCall nnn s = .next t ↔ _
  unfold execCall
  by_cases hfull : s.sp = 16#5
  · simp [hfull, eq_comm]
  · cases hpush : s.pushStack (s.pc.toNat + 2) with
    | none =>
      have hout : ¬ s.sp.toNat < stackDepth := fun h => by simp [State.pushStack, h] at hpush
      simp [hfull, hout]
    | some s' =>
      obtain ⟨hin, rfl⟩ := State.pushStack_eq_some.mp hpush
      simp [hfull, hin, addrOperand, eq_comm]

/-- Everything RET can do where the model does not stop. -/
theorem exec_ret_eq_next {s t : State} :
    exec .ret s = .next t ↔
      (s.sp = 0#5 ∧ t = s.raise .stackUnderflow) ∨
      (s.sp ≠ 0#5 ∧ ∃ h : s.sp.toNat - 1 < stackDepth,
        t = State.jump { s with sp := s.sp - 1 } s.stack[s.sp.toNat - 1].toNat) := by
  show execRet s = .next t ↔ _
  unfold execRet
  by_cases hempty : s.sp = 0#5
  · simp [hempty, eq_comm]
  · cases hpop : s.popStack with
    | none =>
      have hout : ¬ s.sp.toNat - 1 < stackDepth := fun h => by simp [State.popStack, h] at hpop
      simp [hempty, hout]
    | some p =>
      obtain ⟨hin, hentry, hs'⟩ := State.popStack_eq_some.mp hpop
      simp [hempty, hin, hentry, hs', eq_comm]

/-! ### A state with another stack and other keys

Two states that differ in these two parts alone are told apart by no instruction but CALL and RET (the
stack) and the three that look at the keypad. -/

/-- The state with the call stack `z` and the keypad `k`. -/
def State.withStackKeys (s : State) (z : Vector Word stackDepth) (k : BitVec 16) : State :=
  { s with stack := z, keys := k }

/-- An outcome with its next state changed. -/
def mapNext (f : State → State) : Host.Outcome State Fault Refusal → Host.Outcome State Fault Refusal
  | .next s => .next (f s)
  | .fault r => .fault r
  | .refused r => .refused r

@[simp] theorem State.withStackKeys_config (s : State) (z : Vector Word stackDepth) (k : BitVec 16) :
    (s.withStackKeys z k).config = s.config := rfl

@[simp] theorem State.withStackKeys_getV (s : State) (z : Vector Word stackDepth) (k : BitVec 16)
    (r : Nibble) : (s.withStackKeys z k).getV r = s.getV r := rfl

theorem State.withStackKeys_firstKey (s : State) (z : Vector Word stackDepth) :
    (s.withStackKeys z s.keys).firstKey = s.firstKey := rfl

theorem State.setVs_withStackKeys (s : State) (z : Vector Word stackDepth) (k : BitVec 16) (j : Nat)
    (bs : List Byte) : (s.withStackKeys z k).setVs j bs = (s.setVs j bs).withStackKeys z k := by
  induction bs generalizing s j with
  | nil => rfl
  | cons b rest ih => exact ih (s.setV (BitVec.ofNat 4 j) b) (j + 1)

theorem State.writeFlagged_withStackKeys (s : State) (z : Vector Word stackDepth) (k : BitVec 16)
    (x : Nibble) (res f : Byte) :
    (s.withStackKeys z k).writeFlagged x res f = (s.writeFlagged x res f).withStackKeys z k := by
  unfold State.writeFlagged
  rw [State.withStackKeys_config]
  cases s.config.flagOrder <;> rfl

theorem State.unknownOpcode_withStackKeys (s : State) (z : Vector Word stackDepth) (k : BitVec 16) :
    (s.withStackKeys z k).unknownOpcode = s.unknownOpcode.withStackKeys z k := by
  obtain ⟨hp, hu⟩ | ⟨hp, hu⟩ := State.unknownOpcode_cases s
  · rw [hu, State.unknownOpcode_fault (s := s.withStackKeys z k) hp]
    rfl
  · rw [hu, State.unknownOpcode_skip (s := s.withStackKeys z k) hp]
    rfl

/-- An instruction other than CALL and RET does the same whatever the stack holds and, unless it is one of
the three that look at the keypad, whatever keys are pressed. -/
theorem exec_withStackKeys (i : Instr) (s : State) (z : Vector Word stackDepth) (k : BitVec 16)
    (hcall : ¬ ∃ nnn, i = .call nnn) (hret : i ≠ .ret)
    (hkeys : (∃ x, i = .skp x ∨ i = .sknp x ∨ i = .ldVxK x) → k = s.keys) :
    exec i (s.withStackKeys z k) = mapNext (·.withStackKeys z k) (exec i s) := by
  cases i with
  | call nnn => exact absurd ⟨nnn, rfl⟩ hcall
  | ret => exact absurd rfl hret
  | addReg x y | sub x y | shr x y | shl x y =>
    exact congrArg (fun u => Host.Outcome.next u.advance) (s.writeFlagged_withStackKeys z k x _ _)
  | subn x y =>
    show execSubn x y _ = mapNext _ (execSubn x y s)
    unfold execSubn
    rw [State.withStackKeys_config]
    cases s.config.hasSubn with
    | true =>
      exact congrArg (fun u => Host.Outcome.next u.advance) (s.writeFlagged_withStackKeys z k x _ _)
    | false => exact congrArg Host.Outcome.next (s.unknownOpcode_withStackKeys z k)
  | addI x =>
    show execAddI x _ = mapNext _ (execAddI x s)
    unfold execAddI
    rw [State.withStackKeys_config]
    cases s.config.addISetsVF <;> rfl
  | ldVxMem x =>
    exact congrArg (fun u => Host.Outcome.next u.advance) (s.setVs_withStackKeys z k 0 _)
  | skp x =>
    obtain rfl := hkeys ⟨x, .inl rfl⟩
    show execSkp x _ = mapNext _ (execSkp x s)
    unfold execSkp
    rw [State.withStackKeys_getV, apply_ite (mapNext _)]
    rfl
  | sknp x =>
    obtain rfl := hkeys ⟨x, .inr (.inl rfl)⟩
    show execSknp x _ = mapNext _ (execSknp x s)
    unfold execSknp
    rw [State.withStackKeys_getV, apply_ite (mapNext _)]
    rfl
  | ldVxK x =>
    obtain rfl := hkeys ⟨x, .inr (.inr rfl)⟩
    show execLdVxK x _ = mapNext _ (execLdVxK x s)
    unfold execLdVxK
    rw [State.withStackKeys_firstKey]
    cases s.firstKey <;> rfl
  | cls | jp _ | seImm _ _ | sneImm _ _ | seReg _ _ | ldImm _ _ | addImm _ _ | ldReg _ _ | orReg _ _
  | andReg _ _ | xorReg _ _ | sneReg _ _ | ldI _ | jpV0 _ | rnd _ _ | drw _ _ _ | ldVxDT _ | ldDTVx _
  | ldSTVx _ | ldF _ | ldB _ | ldMemVx _ => rfl

/-! ### The call stack (R32) -/

/-- An instruction other than CALL and RET leaves the stack and the keypad: it does the same in the state
whose stack and keypad are replaced by themselves. -/
theorem exec_keeps_stack_and_keys {i : Instr} {s t : State} (hcall : ¬ ∃ nnn, i = .call nnn)
    (hret : i ≠ .ret) (h : exec i s = .next t) : t.stack = s.stack ∧ t.keys = s.keys := by
  have hself : exec i s = mapNext (·.withStackKeys s.stack s.keys) (exec i s) :=
    exec_withStackKeys i s s.stack s.keys hcall hret fun _ => rfl
  rw [h] at hself
  have ht : t = t.withStackKeys s.stack s.keys := Host.Outcome.next.inj hself
  exact ⟨(congrArg State.stack ht :), (congrArg State.keys ht :)⟩

/-- CALL with another stack `z` does the same, and writes `z` where it writes the stack: at S[sp], with one
value for both (R32, R122). -/
theorem exec_call_withStack {nnn : Addr12} {s t : State} (z : Vector Word stackDepth)
    (h : exec (.call nnn) s = .next t) :
    ∃ z', exec (.call nnn) { s with stack := z } = .next { t with stack := z' } ∧
      ∀ k : Fin stackDepth,
        (k.val ≠ s.sp.toNat → t.stack.get k = s.stack.get k ∧ z'.get k = z.get k) ∧
        (k.val = s.sp.toNat → z'.get k = t.stack.get k) := by
  obtain ⟨hfull, rfl⟩ | ⟨hfull, hin, rfl⟩ := exec_call_eq_next.mp h
  · refine ⟨z, exec_call_eq_next.mpr (.inl ⟨hfull, rfl⟩), fun k => ⟨fun _ => ⟨rfl, rfl⟩, fun hk => ?_⟩⟩
    have hsp : s.sp.toNat = stackDepth := congrArg BitVec.toNat hfull
    exact absurd (hk.trans hsp) k.isLt.ne
  · refine ⟨_, exec_call_eq_next.mpr (.inr ⟨hfull, hin, rfl⟩), fun k => ⟨fun hk => ?_, fun hk => ?_⟩⟩
    · simp [Vector.get_eq_getElem, Vector.getElem_set_ne _ _ hk.symm]
    · simp [Vector.get_eq_getElem, hk]

/-- RET leaves the stack, and with another stack `z` that agrees with it at S[sp − 1] does the same (R32,
R120). -/
theorem exec_ret_withStack {s t : State} (z : Vector Word stackDepth) (h : exec .ret s = .next t) :
    t.stack = s.stack ∧
      ((∀ k : Fin stackDepth, k.val + 1 = s.sp.toNat → z.get k = s.stack.get k) →
        exec .ret { s with stack := z } = .next { t with stack := z }) := by
  obtain ⟨hempty, rfl⟩ | ⟨hempty, hin, rfl⟩ := exec_ret_eq_next.mp h
  · exact ⟨rfl, fun _ => exec_ret_eq_next.mpr (.inl ⟨hempty, rfl⟩)⟩
  · refine ⟨rfl, fun hz => exec_ret_eq_next.mpr (.inr ⟨hempty, hin, ?_⟩)⟩
    have hpos : s.sp.toNat ≠ 0 := fun h0 => hempty (BitVec.eq_of_toNat_eq h0)
    have hentry : z[s.sp.toNat - 1] = s.stack[s.sp.toNat - 1] :=
      hz ⟨s.sp.toNat - 1, hin⟩ (Nat.sub_add_cancel (Nat.pos_of_ne_zero hpos))
    rw [hentry]
    rfl

/-- Settles O21: CALL and RET by what they can do, every other instruction because it does the same with
another stack. -/
theorem onlyCallAndReturnReachTheStack : Obligations.OnlyCallAndReturnReachTheStack := by
  unfold Obligations.OnlyCallAndReturnReachTheStack
  intro i s t z h
  by_cases hcall : ∃ nnn, i = .call nnn
  · obtain ⟨nnn, rfl⟩ := hcall
    exact .inl ⟨⟨nnn, rfl⟩, exec_call_withStack z h⟩
  by_cases hret : i = .ret
  · subst hret
    exact .inr (.inl ⟨rfl, exec_ret_withStack z h⟩)
  obtain ⟨hstack, hkeys⟩ := exec_keeps_stack_and_keys hcall hret h
  refine .inr (.inr ⟨hcall, hret, hstack, ?_⟩)
  calc exec i { s with stack := z }
      = mapNext (·.withStackKeys z s.keys) (exec i s) :=
        exec_withStackKeys i s z s.keys hcall hret fun _ => rfl
    _ = .next (t.withStackKeys z t.keys) := by rw [h, hkeys]; rfl

/-! ### The keypad (R43) -/

/-- CALL and RET do the same whatever keys are pressed. -/
theorem exec_call_setKeys {nnn : Addr12} {s t : State} (k : BitVec 16)
    (h : exec (.call nnn) s = .next t) : exec (.call nnn) (s.setKeys k) = .next (t.setKeys k) := by
  obtain ⟨hfull, rfl⟩ | ⟨hfull, hin, rfl⟩ := exec_call_eq_next.mp h
  · exact exec_call_eq_next.mpr (.inl ⟨hfull, rfl⟩)
  · exact exec_call_eq_next.mpr (.inr ⟨hfull, hin, rfl⟩)

theorem exec_ret_setKeys {s t : State} (k : BitVec 16) (h : exec .ret s = .next t) :
    exec .ret (s.setKeys k) = .next (t.setKeys k) := by
  obtain ⟨hempty, rfl⟩ | ⟨hempty, hin, rfl⟩ := exec_ret_eq_next.mp h
  · exact exec_ret_eq_next.mpr (.inl ⟨hempty, rfl⟩)
  · exact exec_ret_eq_next.mpr (.inr ⟨hempty, hin, rfl⟩)

/-- An instruction other than the three that look at the keypad does the same whatever keys are pressed. -/
theorem exec_setKeys {i : Instr} {s t : State} (k : BitVec 16)
    (hreads : ¬ ∃ x, i = .skp x ∨ i = .sknp x ∨ i = .ldVxK x) (h : exec i s = .next t) :
    exec i (s.setKeys k) = .next (t.setKeys k) := by
  by_cases hcall : ∃ nnn, i = .call nnn
  · obtain ⟨nnn, rfl⟩ := hcall
    exact exec_call_setKeys k h
  by_cases hret : i = .ret
  · subst hret
    exact exec_ret_setKeys k h
  have hstack := (exec_keeps_stack_and_keys hcall hret h).1
  calc exec i (s.setKeys k)
      = mapNext (·.withStackKeys s.stack k) (exec i s) :=
        exec_withStackKeys i s s.stack k hcall hret fun hr => absurd hr hreads
    _ = .next (t.withStackKeys t.stack k) := by rw [h, hstack]; rfl

/-- No instruction writes the keypad. -/
theorem exec_keeps_keys {i : Instr} {s t : State} (h : exec i s = .next t) : t.keys = s.keys := by
  by_cases hcall : ∃ nnn, i = .call nnn
  · obtain ⟨nnn, rfl⟩ := hcall
    obtain ⟨-, rfl⟩ | ⟨-, -, rfl⟩ := exec_call_eq_next.mp h <;> rfl
  by_cases hret : i = .ret
  · subst hret
    obtain ⟨-, rfl⟩ | ⟨-, -, rfl⟩ := exec_ret_eq_next.mp h <;> rfl
  exact (exec_keeps_stack_and_keys hcall hret h).2

theorem State.unknownOpcode_keys (s : State) : s.unknownOpcode.keys = s.keys := by
  obtain ⟨-, hu⟩ | ⟨-, hu⟩ := State.unknownOpcode_cases s <;> rw [hu] <;> rfl

/-- A STEP leaves the keypad: halted, at an instruction, and at an unknown word. -/
theorem step_keeps_keys {s t : State} (h : step s = .next t) : t.keys = s.keys := by
  obtain ⟨-, hs⟩ | ⟨-, i, rest, -, hs⟩ | ⟨-, -, hs⟩ := step_cases s
  · cases hs.symm.trans h
    rfl
  · exact (exec_keeps_keys (hs.symm.trans h)).trans (s.latch_keys s.fetchWord)
  · cases hs.symm.trans h
    exact s.fetched.unknownOpcode_keys

theorem State.load_keys (s : State) (image : List Byte) : (s.load image).keys = s.keys := by
  unfold State.load
  split <;> rfl

/-- Settles O23: the writers by the events, the readers by the instructions. -/
theorem onlyTheKeysEventWritesTheKeypad : Obligations.OnlyTheKeysEventWritesTheKeypad := by
  unfold Obligations.OnlyTheKeysEventWritesTheKeypad
  refine ⟨fun e s t h => ?_, fun i s t k h => ?_⟩
  · cases e with
    | keys k =>
      cases h
      exact .inl ⟨k, rfl, rfl⟩
    | reset =>
      cases h
      exact .inr (.inl ⟨rfl, rfl⟩)
    | step => exact .inr (.inr ⟨by simp, by simp, step_keeps_keys h⟩)
    | tick =>
      cases h
      exact .inr (.inr ⟨by simp, by simp, rfl⟩)
    | load image =>
      cases h
      exact .inr (.inr ⟨by simp, by simp, s.load_keys image⟩)
  · by_cases hreads : ∃ x, i = .skp x ∨ i = .sknp x ∨ i = .ldVxK x
    · exact .inl hreads
    · exact .inr (exec_setKeys k hreads h)

end Sys2Proof.Machine
end

section
/-! The encoding (spec 30_encoding.md R81-R87): the decoder answers each instruction's word with the
instruction, answers no other word with it, and agrees with the opcode map's masks and the unknown words. -/

namespace Sys2Proof

/-! ### Decoding an instruction's word -/

/-- The decoder reads the word of every instruction: the dispatch finds the fields the encoder put in. -/
theorem decodeWord_encode (i : Instr) : decodeWord (encode i) = .ok i := by
  cases i with
  | cls | ret => rfl
  | jp _ | call _ | ldI _ | jpV0 _ => simp [encode, decodeWord]
  | seImm _ _ | sneImm _ _ | ldImm _ _ | addImm _ _ | rnd _ _ => simp [encode, decodeWord]
  | drw _ _ _ => simp [encode, decodeWord]
  | seReg _ _ => simp [encode, decodeWord, decode5]
  | sneReg _ _ => simp [encode, decodeWord, decode9]
  | ldReg _ _ | orReg _ _ | andReg _ _ | xorReg _ _ | addReg _ _ | sub _ _ | shr _ _ | subn _ _
  | shl _ _ => simp [encode, decodeWord, decode8]
  | skp _ | sknp _ => simp [encode, decodeWord, decodeE]
  | ldVxDT _ | ldVxK _ | ldDTVx _ | ldSTVx _ | addI _ | ldF _ | ldB _ | ldMemVx _ | ldVxMem _ =>
    simp [encode, decodeWord, decodeF]

theorem decode_of_decodeWord {hi lo : Byte} {i : Instr} (rest : List Byte)
    (h : decodeWord (wordOfBytes hi lo) = .ok i) : decode (hi :: lo :: rest) = .ok (i, rest) := by
  simp only [decode_cons_cons, h]

/-- Settles O2: the two bytes make up the word again, and the decoder reads the word. -/
theorem decodeOfEncode : Obligations.DecodeOfEncode := by
  unfold Obligations.DecodeOfEncode
  intro i rest
  apply decode_of_decodeWord
  rw [wordOfBytes_high_low, decodeWord_encode]

/-! ### A word is put together again from its fields -/

theorem wordOpNNN_of_op {w : Word} {op : Nibble} (h : opField w = op) :
    wordOpNNN op (nnnField w) = w :=
  h ▸ word_of_op_nnn w

theorem wordOpXKK_of_op {w : Word} {op : Nibble} (h : opField w = op) :
    wordOpXKK op (xField w) (kkField w) = w :=
  h ▸ word_of_op_x_kk w

theorem wordOpXKK_of_op_kk {w : Word} {op : Nibble} {kk : Byte} (h : opField w = op)
    (hkk : kkField w = kk) : wordOpXKK op (xField w) kk = w :=
  hkk ▸ wordOpXKK_of_op h

theorem wordOpXYN_of_op {w : Word} {op : Nibble} (h : opField w = op) :
    wordOpXYN op (xField w) (yField w) (nField w) = w :=
  h ▸ word_of_nibbles w

theorem wordOpXYN_of_op_n {w : Word} {op n : Nibble} (h : opField w = op) (hn : nField w = n) :
    wordOpXYN op (xField w) (yField w) n = w :=
  hn ▸ wordOpXYN_of_op h

/-! ### A word that decodes is its instruction's word -/

theorem encode_of_decode0 {w : Word} {i : Instr} (h : decode0 w = .ok i) : encode i = w := by
  unfold decode0 at h
  split at h
  case isTrue hw => cases h; exact hw.symm
  split at h
  case isTrue hw => cases h; exact hw.symm
  cases h

theorem encode_of_decode5 {w : Word} {i : Instr} (hop : opField w = 0x5) (h : decode5 w = .ok i) :
    encode i = w := by
  unfold decode5 at h
  split at h
  case isTrue hn => cases h; exact wordOpXYN_of_op_n hop hn
  cases h

theorem encode_of_decode9 {w : Word} {i : Instr} (hop : opField w = 0x9) (h : decode9 w = .ok i) :
    encode i = w := by
  unfold decode9 at h
  split at h
  case isTrue hn => cases h; exact wordOpXYN_of_op_n hop hn
  cases h

theorem encode_of_decode8 {w : Word} {i : Instr} (hop : opField w = 0x8) (h : decode8 w = .ok i) :
    encode i = w := by
  unfold decode8 at h
  split at h <;> cases h
  all_goals exact wordOpXYN_of_op_n hop (BitVec.eq_of_toNat_eq ‹_›)

theorem encode_of_decodeE {w : Word} {i : Instr} (hop : opField w = 0xE) (h : decodeE w = .ok i) :
    encode i = w := by
  unfold decodeE at h
  repeat' split at h
  all_goals cases h
  all_goals exact wordOpXKK_of_op_kk hop ‹_›

theorem encode_of_decodeF {w : Word} {i : Instr} (hop : opField w = 0xF) (h : decodeF w = .ok i) :
    encode i = w := by
  unfold decodeF at h
  repeat' split at h
  all_goals cases h
  all_goals exact wordOpXKK_of_op_kk hop ‹_›

/-- Everything the dispatch on op answers (R83): the group that reads the rest of the word, or at once the
instruction whose word it is. -/
theorem decodeWord_groups (w : Word) :
    (opField w = 0x0 ∧ decodeWord w = decode0 w) ∨
    (opField w = 0x5 ∧ decodeWord w = decode5 w) ∨
    (opField w = 0x8 ∧ decodeWord w = decode8 w) ∨
    (opField w = 0x9 ∧ decodeWord w = decode9 w) ∨
    (opField w = 0xE ∧ decodeWord w = decodeE w) ∨
    (opField w = 0xF ∧ decodeWord w = decodeF w) ∨
    ((opField w).toNat ∉ [0x0, 0x5, 0x8, 0x9, 0xE, 0xF] ∧
      ∃ i, decodeWord w = .ok i ∧ encode i = w) := by
  have hlt := (opField w).isLt
  unfold decodeWord
  split
  case h_1 hop => exact .inl ⟨BitVec.eq_of_toNat_eq hop, rfl⟩
  case h_6 hop => exact .inr (.inl ⟨BitVec.eq_of_toNat_eq hop, rfl⟩)
  case h_9 hop => exact .inr (.inr (.inl ⟨BitVec.eq_of_toNat_eq hop, rfl⟩))
  case h_10 hop => exact .inr (.inr (.inr (.inl ⟨BitVec.eq_of_toNat_eq hop, rfl⟩)))
  case h_15 hop => exact .inr (.inr (.inr (.inr (.inl ⟨BitVec.eq_of_toNat_eq hop, rfl⟩))))
  case h_16 =>
    have hop : (opField w).toNat = 15 := by simp only [imp_false] at *; omega
    exact .inr (.inr (.inr (.inr (.inr (.inl ⟨BitVec.eq_of_toNat_eq hop, rfl⟩)))))
  all_goals
    rename_i hop
    refine .inr (.inr (.inr (.inr (.inr (.inr ⟨by simp [hop], _, rfl, ?_⟩)))))
  case h_2 | h_3 | h_11 | h_12 => exact wordOpNNN_of_op (BitVec.eq_of_toNat_eq hop)
  case h_4 | h_5 | h_7 | h_8 | h_13 => exact wordOpXKK_of_op (BitVec.eq_of_toNat_eq hop)
  case h_14 => exact wordOpXYN_of_op (BitVec.eq_of_toNat_eq hop)

/-- Settles O3: the decoder's group puts the fields it read in the instruction, and the fields make up the
word. -/
theorem encodeOfDecode : Obligations.EncodeOfDecode := by
  unfold Obligations.EncodeOfDecode
  intro w i h
  obtain ⟨-, hw⟩ | ⟨hop, hw⟩ | ⟨hop, hw⟩ | ⟨hop, hw⟩ | ⟨hop, hw⟩ | ⟨hop, hw⟩ | ⟨-, j, hw, hj⟩ :=
    decodeWord_groups w
  · exact encode_of_decode0 (hw.symm.trans h)
  · exact encode_of_decode5 hop (hw.symm.trans h)
  · exact encode_of_decode8 hop (hw.symm.trans h)
  · exact encode_of_decode9 hop (hw.symm.trans h)
  · exact encode_of_decodeE hop (hw.symm.trans h)
  · exact encode_of_decodeF hop (hw.symm.trans h)
  · obtain rfl : j = i := Except.ok.inj (hw.symm.trans h)
    exact hj

/-- The decoder and the encoder are inverse to each other. -/
theorem decodeWord_eq_ok_iff {w : Word} {i : Instr} : decodeWord w = .ok i ↔ encode i = w :=
  ⟨encodeOfDecode w i, fun h => h ▸ decodeWord_encode i⟩

/-! ### The opcode map's rows (R84) -/

/-- The word of every instruction fits the instruction's row. -/
theorem encode_fitsRow (i : Instr) : encode i &&& i.row.mask = i.row.value := by
  open Laws.EncodeFitsRow in
  cases i with
  | cls => exact cls
  | ret => exact ret
  | jp nnn => exact jp nnn
  | call nnn => exact call nnn
  | seImm x kk => exact seImm x kk
  | sneImm x kk => exact sneImm x kk
  | seReg x y => exact seReg x y
  | ldImm x kk => exact ldImm x kk
  | addImm x kk => exact addImm x kk
  | ldReg x y => exact ldReg x y
  | orReg x y => exact orReg x y
  | andReg x y => exact andReg x y
  | xorReg x y => exact xorReg x y
  | addReg x y => exact addReg x y
  | sub x y => exact sub x y
  | shr x y => exact shr x y
  | subn x y => exact subn x y
  | shl x y => exact shl x y
  | sneReg x y => exact sneReg x y
  | ldI nnn => exact ldI nnn
  | jpV0 nnn => exact jpV0 nnn
  | rnd x kk => exact rnd x kk
  | drw x y n => exact drw x y n
  | skp x => exact skp x
  | sknp x => exact sknp x
  | ldVxDT x => exact ldVxDT x
  | ldVxK x => exact ldVxK x
  | ldDTVx x => exact ldDTVx x
  | ldSTVx x => exact ldSTVx x
  | addI x => exact addI x
  | ldF x => exact ldF x
  | ldB x => exact ldB x
  | ldMemVx x => exact ldMemVx x
  | ldVxMem x => exact ldVxMem x

/-- Mask F000 shows op: a word it takes to `op` and zeros is a word of `op` and nnn. -/
theorem wordOpNNN_of_mask {w : Word} {op : Nibble} (h : w &&& 0xF000 = wordOpNNN op 0) :
    wordOpNNN op (nnnField w) = w := by
  rw [← word_of_op_nnn w, Laws.opNNN_masked] at h
  have hop := congrArg opField h
  simp only [opField_wordOpNNN] at hop
  exact wordOpNNN_of_op hop

theorem wordOpXKK_of_mask {w : Word} {op : Nibble} (h : w &&& 0xF000 = wordOpXKK op 0 0) :
    wordOpXKK op (xField w) (kkField w) = w := by
  rw [← word_of_op_x_kk w, Laws.opXKK_masked] at h
  have hop := congrArg opField h
  simp only [opField_wordOpXKK] at hop
  exact wordOpXKK_of_op hop

theorem wordOpXYN_of_mask {w : Word} {op : Nibble} (h : w &&& 0xF000 = wordOpXYN op 0 0 0) :
    wordOpXYN op (xField w) (yField w) (nField w) = w := by
  rw [← word_of_nibbles w, Laws.opXYN_masked] at h
  have hop := congrArg opField h
  simp only [opField_wordOpXYN] at hop
  exact wordOpXYN_of_op hop

/-- Mask F0FF shows op and kk. -/
theorem wordOpXKK_of_mask_kk {w : Word} {op : Nibble} {kk : Byte}
    (h : w &&& 0xF0FF = wordOpXKK op 0 kk) : wordOpXKK op (xField w) kk = w := by
  rw [← word_of_op_x_kk w, Laws.opXKK_masked_kk] at h
  have hop := congrArg opField h
  have hkk := congrArg kkField h
  simp only [opField_wordOpXKK, kkField_wordOpXKK] at hop hkk
  exact wordOpXKK_of_op_kk hop hkk

/-- Mask F00F shows op and n. -/
theorem wordOpXYN_of_mask_n {w : Word} {op n : Nibble} (h : w &&& 0xF00F = wordOpXYN op 0 0 n) :
    wordOpXYN op (xField w) (yField w) n = w := by
  rw [← word_of_nibbles w, Laws.opXYN_masked_n] at h
  have hop := congrArg opField h
  have hn := congrArg nField h
  simp only [opField_wordOpXYN, nField_wordOpXYN] at hop hn
  exact wordOpXYN_of_op_n hop hn

/-- A word that fits a row is the word of an instruction of that row: the mask shows every fixed field, and
the operands are the word's other fields. -/
theorem exists_encode_of_fitsRow {w : Word} {j : Instr} (h : w &&& j.row.mask = j.row.value) :
    ∃ i : Instr, encode i = w ∧ i.row = j.row := by
  cases j with
  | cls => exact ⟨.cls, h.symm.trans BitVec.and_allOnes, rfl⟩
  | ret => exact ⟨.ret, h.symm.trans BitVec.and_allOnes, rfl⟩
  | jp _ => exact ⟨.jp _, wordOpNNN_of_mask h, rfl⟩
  | call _ => exact ⟨.call _, wordOpNNN_of_mask h, rfl⟩
  | ldI _ => exact ⟨.ldI _, wordOpNNN_of_mask h, rfl⟩
  | jpV0 _ => exact ⟨.jpV0 _, wordOpNNN_of_mask h, rfl⟩
  | seImm _ _ => exact ⟨.seImm _ _, wordOpXKK_of_mask h, rfl⟩
  | sneImm _ _ => exact ⟨.sneImm _ _, wordOpXKK_of_mask h, rfl⟩
  | ldImm _ _ => exact ⟨.ldImm _ _, wordOpXKK_of_mask h, rfl⟩
  | addImm _ _ => exact ⟨.addImm _ _, wordOpXKK_of_mask h, rfl⟩
  | rnd _ _ => exact ⟨.rnd _ _, wordOpXKK_of_mask h, rfl⟩
  | drw _ _ _ => exact ⟨.drw _ _ _, wordOpXYN_of_mask h, rfl⟩
  | seReg _ _ => exact ⟨.seReg _ _, wordOpXYN_of_mask_n h, rfl⟩
  | ldReg _ _ => exact ⟨.ldReg _ _, wordOpXYN_of_mask_n h, rfl⟩
  | orReg _ _ => exact ⟨.orReg _ _, wordOpXYN_of_mask_n h, rfl⟩
  | andReg _ _ => exact ⟨.andReg _ _, wordOpXYN_of_mask_n h, rfl⟩
  | xorReg _ _ => exact ⟨.xorReg _ _, wordOpXYN_of_mask_n h, rfl⟩
  | addReg _ _ => exact ⟨.addReg _ _, wordOpXYN_of_mask_n h, rfl⟩
  | sub _ _ => exact ⟨.sub _ _, wordOpXYN_of_mask_n h, rfl⟩
  | shr _ _ => exact ⟨.shr _ _, wordOpXYN_of_mask_n h, rfl⟩
  | subn _ _ => exact ⟨.subn _ _, wordOpXYN_of_mask_n h, rfl⟩
  | shl _ _ => exact ⟨.shl _ _, wordOpXYN_of_mask_n h, rfl⟩
  | sneReg _ _ => exact ⟨.sneReg _ _, wordOpXYN_of_mask_n h, rfl⟩
  | skp _ => exact ⟨.skp _, wordOpXKK_of_mask_kk h, rfl⟩
  | sknp _ => exact ⟨.sknp _, wordOpXKK_of_mask_kk h, rfl⟩
  | ldVxDT _ => exact ⟨.ldVxDT _, wordOpXKK_of_mask_kk h, rfl⟩
  | ldVxK _ => exact ⟨.ldVxK _, wordOpXKK_of_mask_kk h, rfl⟩
  | ldDTVx _ => exact ⟨.ldDTVx _, wordOpXKK_of_mask_kk h, rfl⟩
  | ldSTVx _ => exact ⟨.ldSTVx _, wordOpXKK_of_mask_kk h, rfl⟩
  | addI _ => exact ⟨.addI _, wordOpXKK_of_mask_kk h, rfl⟩
  | ldF _ => exact ⟨.ldF _, wordOpXKK_of_mask_kk h, rfl⟩
  | ldB _ => exact ⟨.ldB _, wordOpXKK_of_mask_kk h, rfl⟩
  | ldMemVx _ => exact ⟨.ldMemVx _, wordOpXKK_of_mask_kk h, rfl⟩
  | ldVxMem _ => exact ⟨.ldVxMem _, wordOpXKK_of_mask_kk h, rfl⟩

/-- Settles O4: a word of a row is an instruction's word, and an instruction's word has one meaning. -/
theorem decoderSelectsTheOneRow : Obligations.DecoderSelectsTheOneRow := by
  unfold Obligations.DecoderSelectsTheOneRow
  intro w
  refine ⟨fun i hi => ?_, fun j hj => ?_⟩
  · obtain rfl := encodeOfDecode w i hi
    refine ⟨encode_fitsRow i, fun j hj => ?_⟩
    obtain ⟨k, hk, hrow⟩ := exists_encode_of_fitsRow hj
    obtain rfl : k = i := Except.ok.inj ((decodeWord_eq_ok_iff.mpr hk).symm.trans hi)
    exact hrow.symm
  · obtain ⟨i, hi, hrow⟩ := exists_encode_of_fitsRow hj
    exact ⟨i, decodeWord_eq_ok_iff.mpr hi, hrow⟩

/-- Settles O1: each word is the encoder's word of its instruction; 01E0 is neither word of group 0. -/
theorem exampleWordsDecode : Obligations.ExampleWordsDecode := by
  unfold Obligations.ExampleWordsDecode
  exact ⟨decodeWord_encode (.ldImm 0x0 0x05), decodeWord_encode (.ldImm 0x1 0x03),
    decodeWord_encode (.addReg 0x0 0x1), decodeWord_encode .ret, decodeWord_encode .cls,
    decodeWord_encode (.call 0xABC), decodeWord_encode (.drw 0x3 0x4 0x5), decodeWord_encode (.skp 0x5),
    decodeWord_encode (.ldVxMem 0x2), rfl⟩

/-! ### The unknown words (R85) -/

theorem toNat_opField (w : Word) : (opField w).toNat = w.toNat / 4096 := by
  have := w.isLt
  simp only [opField, BitVec.extractLsb'_toNat, Nat.shiftRight_eq_div_pow]
  omega

theorem div_of_opField {w : Word} {op : Nibble} (h : opField w = op) : w.toNat / 4096 = op.toNat :=
  (toNat_opField w).symm.trans (congrArg BitVec.toNat h)

theorem toNat_nField (w : Word) : (nField w).toNat = w.toNat % 16 := by
  simp [nField, BitVec.extractLsb'_toNat]

theorem toNat_kkField (w : Word) : (kkField w).toNat = w.toNat % 256 := by
  simp [kkField, BitVec.extractLsb'_toNat]

/-- The decoder of a configuration answers an instruction the decoder answers and the configuration has. -/
theorem decodeFor_eq_ok_iff {cfg : Config} {w : Word} {i : Instr} :
    decodeFor cfg w = .ok i ↔ decodeWord w = .ok i ∧ i.wellFormed cfg = true := by
  unfold decodeFor
  cases decodeWord w with
  | error e => simp
  | ok j =>
    by_cases hj : j.wellFormed cfg = true
    · simp only [hj, if_true, Except.ok.injEq]
      exact ⟨fun e => ⟨e, e ▸ hj⟩, And.left⟩
    · simp only [hj, Except.ok.injEq]
      exact ⟨nofun, fun ⟨e, hi⟩ => absurd (e ▸ hi) hj⟩

/-- An instruction outside group 8 belongs to every configuration. -/
theorem wellFormed_of_opField_ne {cfg : Config} {i : Instr} (h : opField (encode i) ≠ 0x8) :
    i.wellFormed cfg = true := by
  cases i with
  | subn x y => exact absurd (opField_wordOpXYN 0x8 x y 0x7) h
  | _ => rfl

/-- Outside group 8 the decoder of a configuration is the decoder. -/
theorem decodeFor_of_opField_ne {cfg : Config} {w : Word} (h : opField w ≠ 0x8) :
    (∃ i, decodeFor cfg w = .ok i) ↔ ∃ i, decodeWord w = .ok i := by
  simp only [decodeFor_eq_ok_iff]
  refine exists_congr fun i => and_iff_left_of_imp fun hi => ?_
  obtain rfl := encodeOfDecode w i hi
  exact wellFormed_of_opField_ne h

theorem decode0_answers (w : Word) :
    (∃ i, decode0 w = .ok i) ↔ w.toNat = 0x00E0 ∨ w.toNat = 0x00EE := by
  have hw : ∀ v : Word, w = v ↔ w.toNat = v.toNat := fun v => BitVec.toNat_inj.symm
  unfold decode0
  split
  case isTrue h => simp [h]
  split
  case isTrue h => simp [h]
  case isFalse h0 h1 => simp_all

theorem decode5_answers (w : Word) : (∃ i, decode5 w = .ok i) ↔ w.toNat % 16 = 0 := by
  rw [← toNat_nField]
  unfold decode5
  split <;> simp_all [← BitVec.toNat_inj]

theorem decode9_answers (w : Word) : (∃ i, decode9 w = .ok i) ↔ w.toNat % 16 = 0 := by
  rw [← toNat_nField]
  unfold decode9
  split <;> simp_all [← BitVec.toNat_inj]

theorem decodeE_answers (w : Word) : (∃ i, decodeE w = .ok i) ↔ w.toNat % 256 ∈ [0x9E, 0xA1] := by
  rw [← toNat_kkField]
  unfold decodeE
  repeat' split
  all_goals simp_all [← BitVec.toNat_inj]

theorem decodeF_answers (w : Word) :
    (∃ i, decodeF w = .ok i) ↔
      w.toNat % 256 ∈ [0x07, 0x0A, 0x15, 0x18, 0x1E, 0x29, 0x33, 0x55, 0x65] := by
  rw [← toNat_kkField]
  unfold decodeF
  repeat' split
  all_goals simp_all [← BitVec.toNat_inj]

theorem decode8_answers (cfg : Config) (w : Word) :
    (∃ i, decode8 w = .ok i ∧ i.wellFormed cfg = true) ↔
      ¬ (w.toNat % 16 ∈ [0x8, 0x9, 0xA, 0xB, 0xC, 0xD, 0xF] ∨
        (w.toNat % 16 = 0x7 ∧ cfg.hasSubn = false)) := by
  rw [← toNat_nField]
  have hlt := (nField w).isLt
  unfold decode8
  split
  case h_8 hn => simp [hn, Instr.wellFormed]
  case h_10 =>
    simp only [imp_false] at *
    have hn : (nField w).toNat ∈ [0x8, 0x9, 0xA, 0xB, 0xC, 0xD, 0xF] := by
      simp only [List.mem_cons, List.not_mem_nil]
      omega
    simp only [hn, true_or, not_true, reduceCtorEq, false_and, exists_false]
  all_goals rename_i hn; simp [hn, Instr.wellFormed]

/-- Settles O5: group by group of the dispatch; HAS_SUBN counts in group 8 alone. -/
theorem unknownWordsAreExactlyTheListed : Obligations.UnknownWordsAreExactlyTheListed := by
  unfold Obligations.UnknownWordsAreExactlyTheListed Machine.UnknownWord
  intro cfg w
  rw [not_iff_comm]
  obtain ⟨hop, hw⟩ | ⟨hop, hw⟩ | ⟨hop, hw⟩ | ⟨hop, hw⟩ | ⟨hop, hw⟩ | ⟨hop, hw⟩ | ⟨hop, i, hw, -⟩ :=
    decodeWord_groups w
  · rw [decodeFor_of_opField_ne (by simp [hop]), hw, decode0_answers]
    simp [div_of_opField hop, or_iff_not_imp_left]
  · rw [decodeFor_of_opField_ne (by simp [hop]), hw, decode5_answers]
    simp [div_of_opField hop]
  · simp only [decodeFor_eq_ok_iff, hw, decode8_answers]
    simp [div_of_opField hop]
  · rw [decodeFor_of_opField_ne (by simp [hop]), hw, decode9_answers]
    simp [div_of_opField hop]
  · rw [decodeFor_of_opField_ne (by simp [hop]), hw, decodeE_answers]
    simp [div_of_opField hop, -List.mem_cons]
  · rw [decodeFor_of_opField_ne (by simp [hop]), hw, decodeF_answers]
    simp [div_of_opField hop, -List.mem_cons]
  · rw [decodeFor_of_opField_ne (by rintro h; simp [h] at hop), hw]
    rw [toNat_opField] at hop
    simp only [List.mem_cons, not_or] at hop
    simp [hop]

end Sys2Proof
end

section
/-! What every instruction may write (spec 00_scope.md R11, 10_state.md R21): the frame of each state
operation, and from them the frame of each instruction. -/

namespace Sys2Proof.Machine

/-! ### Frames compose -/

theorem Part.same_trans {s t u : State} : ∀ {p : Part}, p.same s t → p.same t u → p.same s u
  | .regs, h, h' => fun r => (h' r).trans (h r)
  | .screen, h, h' => fun x y => (h' x y).trans (h x y)
  | .memory, h, h' => fun a => (h' a).trans (h a)
  | .fault, ⟨h1, h2, h3⟩, ⟨h1', h2', h3'⟩ | .trace, ⟨h1, h2, h3⟩, ⟨h1', h2', h3'⟩ =>
    ⟨h1'.trans h1, h2'.trans h2, h3'.trans h3⟩
  | .random, ⟨h1, h2⟩, ⟨h1', h2'⟩ => ⟨h1'.trans h1, h2'.trans h2⟩
  | .index, h, h' | .pc, h, h' | .stack, h, h' | .sp, h, h' | .dt, h, h' | .st, h, h'
  | .latch, h, h' | .keys, h, h' | .config, h, h' => h'.trans h

theorem KeepsAllBut.refl (ps : List Part) (s : State) : KeepsAllBut ps s s := by
  intro p _
  cases p <;> simp [Part.same]

theorem KeepsAllBut.mono {ps qs : List Part} {s t : State} (h : KeepsAllBut ps s t) (hsub : ps ⊆ qs) :
    KeepsAllBut qs s t :=
  fun p hp => h p fun hmem => hp (hsub hmem)

/-- One change after another: what neither writes is unchanged. -/
theorem KeepsAllBut.comp {ps qs : List Part} {s t u : State} (h : KeepsAllBut ps s t)
    (h' : KeepsAllBut qs t u) : KeepsAllBut (ps ++ qs) s u := by
  intro p hp
  obtain ⟨hps, hqs⟩ := not_or.mp fun hmem => hp (List.mem_append.mpr hmem)
  exact Part.same_trans (h p hps) (h' p hqs)

/-! ### The frame of each state operation -/

section
variable (s : State)

theorem keeps_setV (x : Nibble) (b : Byte) : KeepsAllBut [.regs] s (s.setV x b) := by
  intro p hp
  cases p <;> simp_all [Part.same]

theorem keeps_setVs (k : Nat) (bs : List Byte) : KeepsAllBut [.regs] s (s.setVs k bs) := by
  induction bs generalizing s k with
  | nil => exact .refl _ s
  | cons b rest ih => exact ((keeps_setV s _ b).comp (ih _ (k + 1))).mono (by simp)

theorem keeps_writeFlagged (x : Nibble) (res f : Byte) :
    KeepsAllBut [.regs] s (s.writeFlagged x res f) := by
  unfold State.writeFlagged
  cases s.config.flagOrder <;> exact ((keeps_setV s _ _).comp (keeps_setV _ _ _)).mono (by simp)

theorem keeps_setIndex (n : Nat) : KeepsAllBut [.index] s (s.setIndex n) := by
  intro p hp
  cases p <;> simp_all [Part.same]

theorem keeps_setDT (b : Byte) : KeepsAllBut [.dt] s (s.setDT b) := by
  intro p hp
  cases p <;> simp_all [Part.same]

theorem keeps_setST (b : Byte) : KeepsAllBut [.st] s (s.setST b) := by
  intro p hp
  cases p <;> simp_all [Part.same]

theorem keeps_latch (w : Word) : KeepsAllBut [.latch] s (s.latch w) := by
  intro p hp
  cases p <;> simp_all [Part.same]

theorem keeps_jump (n : Nat) : KeepsAllBut [.pc] s (s.jump n) := by
  intro p hp
  cases p <;> simp_all [Part.same]

theorem keeps_advance : KeepsAllBut [.pc] s s.advance := keeps_jump s _

theorem keeps_skipIf (c : Bool) : KeepsAllBut [.pc] s (s.skipIf c) := keeps_jump s _

theorem keeps_setFB (fb : Framebuffer) : KeepsAllBut [.screen] s (s.setFB fb) := by
  intro p hp
  cases p <;> simp_all [Part.same]

theorem keeps_writeMemBytes (a : Nat) (bs : List Byte) :
    KeepsAllBut [.memory] s (s.writeMemBytes a bs) := by
  intro p hp
  cases p <;> simp_all [Part.same]

theorem keeps_takeRand : KeepsAllBut [.random] s s.takeRand := by
  intro p hp
  cases p <;> simp_all [Part.same]

theorem keeps_raise (c : FaultCause) : KeepsAllBut [.fault] s (s.raise c) := by
  intro p hp
  cases p <;> simp_all [Part.same]

theorem keeps_traceUnknown : KeepsAllBut [.trace] s s.traceUnknown := by
  intro p hp
  cases p <;> simp_all [Part.same]

theorem keeps_unknownOpcode : KeepsAllBut [.fault, .trace, .pc] s s.unknownOpcode := by
  obtain ⟨-, h⟩ | ⟨-, h⟩ := s.unknownOpcode_cases
  · rw [h]
    exact (keeps_raise s _).mono (by simp)
  · rw [h]
    exact ((keeps_traceUnknown s).comp (keeps_advance _)).mono (by simp)

theorem keeps_tick : KeepsAllBut [.dt, .st] s s.tick := by
  intro p hp
  cases p <;> simp_all [Part.same]

theorem keeps_setKeys (k : BitVec 16) : KeepsAllBut [.keys] s (s.setKeys k) := by
  intro p hp
  cases p <;> simp_all [Part.same]

end

/-! ### The instructions that branch -/

/-- Everything a key skip can do: it faults or it skips. -/
theorem exec_skp_eq (x : Nibble) (s : State) :
    exec (.skp x) s = .next (if 0x0F < (s.getV x).toNat then s.raise .keyIndexRange
      else s.skipIf (s.key (s.getV x).toNat)) :=
  (apply_ite Host.Outcome.next _ _ _).symm

theorem exec_sknp_eq (x : Nibble) (s : State) :
    exec (.sknp x) s = .next (if 0x0F < (s.getV x).toNat then s.raise .keyIndexRange
      else s.skipIf (!s.key (s.getV x).toNat)) :=
  (apply_ite Host.Outcome.next _ _ _).symm

theorem exec_subn_of_present {s : State} (x y : Nibble) (h : s.config.hasSubn = true) :
    exec (.subn x y) s =
      .next (s.writeFlagged x (s.getV y - s.getV x) (notBorrowFlag (s.getV y) (s.getV x))).advance :=
  if_pos h

theorem exec_subn_of_absent {s : State} (x y : Nibble) (h : s.config.hasSubn = false) :
    exec (.subn x y) s = .next s.unknownOpcode :=
  if_neg (by simp [h])

theorem exec_addI_with_flag {s : State} (x : Nibble) (h : s.config.addISetsVF = true) :
    exec (.addI x) s = .next
      ((s.setIndex (s.indexSum x)).setV vF (indexOverflowFlag (s.indexSum x))).advance := by
  simp only [exec, execAddI, h, if_true]

theorem exec_addI_without_flag {s : State} (x : Nibble) (h : s.config.addISetsVF = false) :
    exec (.addI x) s = .next (s.setIndex (s.indexSum x)).advance := by
  simp only [exec, execAddI, h, Bool.false_eq_true, if_false]

theorem exec_ldVxK_of_key {s : State} {k : Nat} (x : Nibble) (h : s.firstKey = some k) :
    exec (.ldVxK x) s = .next (s.setV x (BitVec.ofNat 8 k)).advance := by
  simp only [exec, execLdVxK, h]

theorem exec_ldVxK_of_no_key {s : State} (x : Nibble) (h : s.firstKey = none) :
    exec (.ldVxK x) s = .next s := by
  simp only [exec, execLdVxK, h]

/-! ### The frame of each instruction -/

/-- The frame of CALL where it does not fault: the stack, sp and pc. -/
theorem keeps_push (s : State) (z : Vector Word stackDepth) (n : BitVec 5) (target : Nat) :
    KeepsAllBut [.stack, .sp, .pc] s (State.jump { s with stack := z, sp := n } target) := by
  intro p hp
  cases p <;> simp_all [Part.same] <;> intros <;> rfl

/-- The frame of RET where it does not fault: sp and pc. -/
theorem keeps_pop (s : State) (n : BitVec 5) (target : Nat) :
    KeepsAllBut [.sp, .pc] s (State.jump { s with sp := n } target) := by
  intro p hp
  cases p <;> simp_all [Part.same] <;> intros <;> rfl

/-- Settles O16: each instruction's state operations, one after another, have its frame. -/
theorem instructionsWriteOnlyTheirParts : Obligations.InstructionsWriteOnlyTheirParts := by
  unfold Obligations.InstructionsWriteOnlyTheirParts
  intro i s t h
  cases i with
  | cls => cases h; exact (keeps_setFB s _).comp (keeps_advance _)
  | ret =>
    obtain ⟨-, rfl⟩ | ⟨-, -, rfl⟩ := exec_ret_eq_next.mp h
    · exact (keeps_raise s _).mono (by simp [writableParts])
    · exact (keeps_pop s _ _).mono (by simp [writableParts])
  | call nnn =>
    obtain ⟨-, rfl⟩ | ⟨-, -, rfl⟩ := exec_call_eq_next.mp h
    · exact (keeps_raise s _).mono (by simp [writableParts])
    · exact (keeps_push s _ _ _).mono (by simp [writableParts])
  | jp _ | jpV0 _ | seImm _ _ | sneImm _ _ | seReg _ _ | sneReg _ _ => cases h; exact keeps_jump s _
  | ldImm _ _ | addImm _ _ | ldReg _ _ | orReg _ _ | andReg _ _ | xorReg _ _ | ldVxDT _ =>
    cases h; exact (keeps_setV s _ _).comp (keeps_advance _)
  | addReg _ _ | sub _ _ | shr _ _ | shl _ _ =>
    cases h; exact (keeps_writeFlagged s _ _ _).comp (keeps_advance _)
  | subn x y =>
    cases hsub : s.config.hasSubn with
    | false =>
      cases (exec_subn_of_absent x y hsub).symm.trans h
      exact (keeps_unknownOpcode s).mono (by simp [writableParts, hsub])
    | true =>
      cases (exec_subn_of_present x y hsub).symm.trans h
      exact ((keeps_writeFlagged s _ _ _).comp (keeps_advance _)).mono (by simp [writableParts, hsub])
  | ldI _ | ldF _ => cases h; exact (keeps_setIndex s _).comp (keeps_advance _)
  | addI x =>
    cases hvf : s.config.addISetsVF with
    | false =>
      cases (exec_addI_without_flag x hvf).symm.trans h
      exact ((keeps_setIndex s _).comp (keeps_advance _)).mono (by simp [writableParts, hvf])
    | true =>
      cases (exec_addI_with_flag x hvf).symm.trans h
      exact (((keeps_setIndex s _).comp (keeps_setV _ _ _)).comp (keeps_advance _)).mono
        (by simp [writableParts, hvf])
  | rnd _ _ =>
    cases h
    exact (((keeps_takeRand s).comp (keeps_setV _ _ _)).comp (keeps_advance _)).mono
      (by simp [writableParts])
  | drw _ _ _ =>
    cases h; exact ((keeps_setFB s _).comp (keeps_setV _ _ _)).comp (keeps_advance _)
  | skp x =>
    rw [exec_skp_eq] at h
    cases h
    split
    · exact (keeps_raise s _).mono (by simp [writableParts])
    · exact (keeps_skipIf s _).mono (by simp [writableParts])
  | sknp x =>
    rw [exec_sknp_eq] at h
    cases h
    split
    · exact (keeps_raise s _).mono (by simp [writableParts])
    · exact (keeps_skipIf s _).mono (by simp [writableParts])
  | ldVxK x =>
    cases hk : s.firstKey with
    | none =>
      cases (exec_ldVxK_of_no_key x hk).symm.trans h
      exact .refl _ s
    | some k =>
      cases (exec_ldVxK_of_key x hk).symm.trans h
      exact (keeps_setV s _ _).comp (keeps_advance _)
  | ldDTVx _ => cases h; exact (keeps_setDT s _).comp (keeps_advance _)
  | ldSTVx _ => cases h; exact (keeps_setST s _).comp (keeps_advance _)
  | ldB _ | ldMemVx _ => cases h; exact (keeps_writeMemBytes s _ _).comp (keeps_advance _)
  | ldVxMem _ => cases h; exact (keeps_setVs s _ _).comp (keeps_advance _)

theorem exec_frame {i : Instr} {s t : State} (h : exec i s = .next t) :
    KeepsAllBut (writableParts s.config i) s t :=
  instructionsWriteOnlyTheirParts i s t h

/-! ### The registers of each instruction (R21) -/

theorem State.getV_writeFlagged_ne (s : State) {x r : Nibble} (res f : Byte) (h : ¬ (r = x ∨ r = vF)) :
    (s.writeFlagged x res f).getV r = s.getV r := by
  obtain ⟨hx, hv⟩ := not_or.mp h
  simp [State.getV_writeFlagged, hx, hv]

/-- A key is pressed exactly where the keypad is not 0. -/
theorem State.firstKey_eq_none_iff (s : State) : s.firstKey = none ↔ s.keys = 0#16 := by
  rw [State.firstKey_eq_none]
  constructor
  · exact fun h => BitVec.eq_of_getLsbD_eq fun k hk => (h k hk).trans BitVec.getLsbD_zero.symm
  · intro h k _
    simp [State.key, h]

/-- A block load leaves the registers above V[x]. -/
theorem State.getV_block_above (s : State) {x r : Nibble} (h : x.toNat < r.toNat) :
    (s.setVs 0 (s.bytesAtI (x.toNat + 1))).getV r = s.getV r := by
  have := x.isLt
  rw [State.getV_setVs _ _ _ _ (by rw [State.length_bytesAtI]; omega), dif_neg]
  rw [State.length_bytesAtI]
  omega

/-- Settles O17: an instruction that may not write the registers keeps them all (O16), and each one that may
writes those of R21. -/
theorem registersAreWrittenOnlyAsListed : Obligations.RegistersAreWrittenOnlyAsListed := by
  unfold Obligations.RegistersAreWrittenOnlyAsListed
  intro i s t r h hw
  have hframe := exec_frame h .regs
  cases i with
  | cls | ret | call _ | jp _ | jpV0 _ | seImm _ _ | sneImm _ _ | seReg _ _ | sneReg _ _ | ldI _ | ldF _
  | skp _ | sknp _ | ldDTVx _ | ldSTVx _ | ldB _ | ldMemVx _ => exact hframe (by simp [writableParts]) r
  | ldImm _ _ | addImm _ _ | ldReg _ _ | orReg _ _ | andReg _ _ | xorReg _ _ | rnd _ _ | ldVxDT _
  | drw _ _ _ => cases h; exact State.getV_setV_ne _ _ hw
  | addReg _ _ | sub _ _ | shr _ _ | shl _ _ => cases h; exact State.getV_writeFlagged_ne _ _ _ hw
  | subn x y =>
    cases hsub : s.config.hasSubn with
    | false => exact hframe (by simp [writableParts, hsub]) r
    | true =>
      cases (exec_subn_of_present x y hsub).symm.trans h
      exact State.getV_writeFlagged_ne _ _ _ fun hr => hw ⟨hsub, hr⟩
  | addI x =>
    cases hvf : s.config.addISetsVF with
    | false => exact hframe (by simp [writableParts, hvf]) r
    | true =>
      cases (exec_addI_with_flag x hvf).symm.trans h
      exact State.getV_setV_ne _ _ fun hr => hw ⟨hvf, hr⟩
  | ldVxK x =>
    cases hk : s.firstKey with
    | none =>
      cases (exec_ldVxK_of_no_key x hk).symm.trans h
      rfl
    | some k =>
      cases (exec_ldVxK_of_key x hk).symm.trans h
      refine State.getV_setV_ne _ _ fun hr => hw ⟨hr, fun h0 => ?_⟩
      exact absurd (s.firstKey_eq_none_iff.mpr h0) (by simp [hk])
  | ldVxMem x => cases h; exact s.getV_block_above (Nat.lt_of_not_le hw)

theorem exec_regs_frame {i : Instr} {s t : State} {rs : List Nibble} (h : exec i s = .next t)
    (hrs : ∀ r, WritesReg s r i → r ∈ rs) : KeepsRegsBut rs s t :=
  fun r hr => registersAreWrittenOnlyAsListed i s t r h fun hw => hr (hrs r hw)

end Sys2Proof.Machine
end

section
/-! Faults, the next pc and the STEP (spec 10_state.md R27, 30_encoding.md R80, 60_exceptions.md R301-R304). -/

namespace Sys2Proof.Machine

/-! ### Faults (R301, R302) -/

/-- Where R301 lists a fault, the fault entry is all the instruction does. -/
theorem exec_of_raisedBy {i : Instr} {s : State} {c : FaultCause} (h : raisedBy s i = some c) :
    exec i s = .next (s.raise c) := by
  cases i with
  | ret =>
    obtain ⟨hsp, rfl⟩ : s.sp = 0#5 ∧ _ = c := by simpa [raisedBy] using h
    exact exec_ret_eq_next.mpr (.inl ⟨hsp, rfl⟩)
  | call nnn =>
    obtain ⟨hsp, rfl⟩ : s.sp = 16#5 ∧ _ = c := by simpa [raisedBy] using h
    exact exec_call_eq_next.mpr (.inl ⟨hsp, rfl⟩)
  | skp x =>
    obtain ⟨hx, rfl⟩ : 0x0F < (s.getV x).toNat ∧ _ = c := by simpa [raisedBy] using h
    rw [exec_skp_eq, if_pos hx]
  | sknp x =>
    obtain ⟨hx, rfl⟩ : 0x0F < (s.getV x).toNat ∧ _ = c := by simpa [raisedBy] using h
    rw [exec_sknp_eq, if_pos hx]
  | subn x y =>
    obtain ⟨⟨hsub, hpol⟩, rfl⟩ :
        (s.config.hasSubn = false ∧ s.config.unknownOpcodePolicy = .fault) ∧ _ = c := by
      simpa [raisedBy] using h
    rw [exec_subn_of_absent x y hsub, State.unknownOpcode_fault hpol]
  | _ => cases h

theorem faultTaken_raise (s : State) (c : FaultCause) : FaultTaken s (s.raise c) c.code.toNat :=
  ⟨rfl, rfl, rfl, keeps_raise s c⟩

theorem faultTaken_of_raisedBy {i : Instr} {s t : State} {c : FaultCause} (h : exec i s = .next t)
    (hc : raisedBy s i = some c) : FaultTaken s t c.code.toNat := by
  cases (exec_of_raisedBy hc).symm.trans h
  exact faultTaken_raise s c

/-- Where R301 lists no fault, the fault registers are kept. -/
theorem exec_keeps_fault {i : Instr} {s t : State} (h : exec i s = .next t) (hc : raisedBy s i = none) :
    Part.same s t .fault := by
  cases i with
  | ret =>
    obtain ⟨hsp, -⟩ | ⟨-, -, rfl⟩ := exec_ret_eq_next.mp h
    · simp [raisedBy, hsp] at hc
    · exact ⟨rfl, rfl, rfl⟩
  | call nnn =>
    obtain ⟨hsp, -⟩ | ⟨-, -, rfl⟩ := exec_call_eq_next.mp h
    · simp [raisedBy, hsp] at hc
    · exact ⟨rfl, rfl, rfl⟩
  | skp x =>
    have hx : ¬ 0x0F < (s.getV x).toNat := by simpa [raisedBy] using hc
    rw [exec_skp_eq, if_neg hx] at h
    cases h
    exact ⟨rfl, rfl, rfl⟩
  | sknp x =>
    have hx : ¬ 0x0F < (s.getV x).toNat := by simpa [raisedBy] using hc
    rw [exec_sknp_eq, if_neg hx] at h
    cases h
    exact ⟨rfl, rfl, rfl⟩
  | subn x y =>
    cases hsub : s.config.hasSubn with
    | false =>
      cases (exec_subn_of_absent x y hsub).symm.trans h
      obtain ⟨hpol, -⟩ | ⟨-, hu⟩ := s.unknownOpcode_cases
      · simp [raisedBy, hsub, hpol] at hc
      · rw [hu]
        exact ⟨rfl, rfl, rfl⟩
    | true => exact exec_frame h .fault (by simp [writableParts, hsub])
  | addI x =>
    refine exec_frame h .fault ?_
    cases hvf : s.config.addISetsVF <;> simp [writableParts, hvf]
  | _ => exact exec_frame h .fault (by simp [writableParts])

/-- Settles O19: a listed fault is the fault entry with its cause's code, and without one the fault
registers are kept. -/
theorem faultsAreExactlyTheListed : Obligations.FaultsAreExactlyTheListed := by
  unfold Obligations.FaultsAreExactlyTheListed
  intro i s t h
  exact ⟨faultTaken_of_raisedBy h, faultTaken_of_raisedBy h, faultTaken_of_raisedBy h,
    faultTaken_of_raisedBy h, exec_keeps_fault h⟩

/-! ### The next pc (R26, R27) -/

theorem pcIs_jump (s : State) (n : Nat) : PcIs (s.jump n) n := s.toNat_jump_pc n

theorem pcIs_advance (s : State) : PcIs s.advance (s.pc.toNat + 2) := pcIs_jump s _

theorem pcIs_advance_of_same {s t : State} (h : Part.same s t .pc) : PcIs t.advance (s.pc.toNat + 2) := by
  rw [← show t.pc = s.pc from h]
  exact pcIs_advance t

theorem pcIs_skipIf {s : State} {c : Bool} {p : Prop} [Decidable p] (h : c = true ↔ p) :
    PcIs (s.skipIf c) (s.pc.toNat + if p then 4 else 2) := by
  rw [← if_congr h rfl rfl]
  exact s.toNat_skipIf_pc c

theorem pcIs_self {s t : State} (hpc : s.pc.toNat < 4096) (h : t.pc = s.pc) : PcIs t s.pc.toNat := by
  rw [PcIs, h, Nat.mod_eq_of_lt hpc]

/-- Settles O18: a fault keeps pc; otherwise each instruction's move of pc is the table's. -/
theorem nextPcIsTheTables : Obligations.NextPcIsTheTables := by
  unfold Obligations.NextPcIsTheTables
  intro i s t hpc h
  cases hc : raisedBy s i with
  | some c =>
    cases (exec_of_raisedBy hc).symm.trans h
    simpa [nextPc, hc] using pcIs_self hpc (s.raise_pc c)
  | none =>
    simp only [nextPc, hc, Option.isSome_none, Bool.false_eq_true, if_false]
    cases i with
    | ret =>
      obtain ⟨hsp, -⟩ | ⟨-, hin, rfl⟩ := exec_ret_eq_next.mp h
      · simp [raisedBy, hsp] at hc
      · simpa [hin] using pcIs_jump _ s.stack[s.sp.toNat - 1].toNat
    | call nnn =>
      obtain ⟨hsp, -⟩ | ⟨-, -, rfl⟩ := exec_call_eq_next.mp h
      · simp [raisedBy, hsp] at hc
      · exact pcIs_jump _ _
    | skp x =>
      have hx : ¬ 0x0F < (s.getV x).toNat := by simpa [raisedBy] using hc
      rw [exec_skp_eq, if_neg hx] at h
      cases h
      exact pcIs_skipIf .rfl
    | sknp x =>
      have hx : ¬ 0x0F < (s.getV x).toNat := by simpa [raisedBy] using hc
      rw [exec_sknp_eq, if_neg hx] at h
      cases h
      exact pcIs_skipIf (by rw [Bool.not_eq_true'])
    | subn x y =>
      cases hsub : s.config.hasSubn with
      | false =>
        cases (exec_subn_of_absent x y hsub).symm.trans h
        obtain ⟨hpol, -⟩ | ⟨-, hu⟩ := s.unknownOpcode_cases
        · simp [raisedBy, hsub, hpol] at hc
        · rw [hu]
          exact pcIs_advance _
      | true =>
        cases (exec_subn_of_present x y hsub).symm.trans h
        exact pcIs_advance_of_same (keeps_writeFlagged s _ _ _ .pc (by simp))
    | addI x =>
      cases hvf : s.config.addISetsVF with
      | false =>
        cases (exec_addI_without_flag x hvf).symm.trans h
        exact pcIs_advance _
      | true =>
        cases (exec_addI_with_flag x hvf).symm.trans h
        exact pcIs_advance _
    | ldVxK x =>
      cases hk : s.firstKey with
      | none =>
        cases (exec_ldVxK_of_no_key x hk).symm.trans h
        simpa [s.firstKey_eq_none_iff.mp hk] using pcIs_self hpc rfl
      | some k =>
        cases (exec_ldVxK_of_key x hk).symm.trans h
        have hkeys : s.keys ≠ 0#16 := fun h0 => by simp [s.firstKey_eq_none_iff.mpr h0] at hk
        simpa [hkeys] using pcIs_advance (s.setV x (BitVec.ofNat 8 k))
    | seImm x kk => cases h; exact pcIs_skipIf beq_iff_eq
    | sneImm x kk => cases h; exact pcIs_skipIf bne_iff_ne
    | seReg x y => cases h; exact pcIs_skipIf beq_iff_eq
    | sneReg x y => cases h; exact pcIs_skipIf bne_iff_ne
    | jp _ | jpV0 _ => cases h; exact pcIs_jump _ _
    | addReg _ _ | sub _ _ | shr _ _ | shl _ _ =>
      cases h
      exact pcIs_advance_of_same (keeps_writeFlagged s _ _ _ .pc (by simp))
    | ldVxMem x =>
      cases h
      exact pcIs_advance_of_same (keeps_setVs s 0 _ .pc (by simp))
    | cls | ldImm _ _ | addImm _ _ | ldReg _ _ | orReg _ _ | andReg _ _ | xorReg _ _ | ldI _ | rnd _ _
    | drw _ _ _ | ldVxDT _ | ldDTVx _ | ldSTVx _ | ldF _ | ldB _ | ldMemVx _ =>
      cases h; exact pcIs_advance _

/-! ### The model's own stop (R33; log 8) -/

/-- An instruction other than CALL and RET always answers a next state. -/
theorem exec_answers {i : Instr} (s : State) (hcall : ¬ ∃ nnn, i = .call nnn) (hret : i ≠ .ret) :
    ∃ t, exec i s = .next t := by
  cases i with
  | call nnn => exact absurd ⟨nnn, rfl⟩ hcall
  | ret => exact absurd rfl hret
  | skp x => exact ⟨_, exec_skp_eq x s⟩
  | sknp x => exact ⟨_, exec_sknp_eq x s⟩
  | subn x y =>
    cases hsub : s.config.hasSubn with
    | false => exact ⟨_, exec_subn_of_absent x y hsub⟩
    | true => exact ⟨_, exec_subn_of_present x y hsub⟩
  | ldVxK x =>
    cases hk : s.firstKey with
    | none => exact ⟨_, exec_ldVxK_of_no_key x hk⟩
    | some k => exact ⟨_, exec_ldVxK_of_key x hk⟩
  | _ => exact ⟨_, rfl⟩

/-- CALL answers a next state where sp names an entry or is 16, and else stops with noStackEntry. -/
theorem exec_call_cases (nnn : Addr12) (s : State) :
    (∃ t, exec (.call nnn) s = .next t) ∨
      (16 < s.sp.toNat ∧ exec (.call nnn) s = .fault .noStackEntry) := by
  by_cases hfull : s.sp = 16#5
  · exact .inl ⟨_, exec_call_eq_next.mpr (.inl ⟨hfull, rfl⟩)⟩
  by_cases hin : s.sp.toNat < stackDepth
  · exact .inl ⟨_, exec_call_eq_next.mpr (.inr ⟨hfull, hin, rfl⟩)⟩
  · have hne : s.sp.toNat ≠ 16 := fun h => hfull (BitVec.eq_of_toNat_eq h)
    refine .inr ⟨by unfold stackDepth at hin; omega, ?_⟩
    simp [exec, execCall, State.pushStack, hfull, hin]

/-- RET answers a next state where sp is 0 or sp − 1 names an entry, and else stops with noStackEntry. -/
theorem exec_ret_cases (s : State) :
    (∃ t, exec .ret s = .next t) ∨ (16 < s.sp.toNat ∧ exec .ret s = .fault .noStackEntry) := by
  by_cases hempty : s.sp = 0#5
  · exact .inl ⟨_, exec_ret_eq_next.mpr (.inl ⟨hempty, rfl⟩)⟩
  by_cases hin : s.sp.toNat - 1 < stackDepth
  · exact .inl ⟨_, exec_ret_eq_next.mpr (.inr ⟨hempty, hin, rfl⟩)⟩
  · refine .inr ⟨by unfold stackDepth at hin; omega, ?_⟩
    simp [exec, execRet, State.popStack, hempty, hin]

/-- Every instruction answers a next state, or is CALL or RET with sp above 16. -/
theorem exec_cases (i : Instr) (s : State) :
    (∃ t, exec i s = .next t) ∨
      (16 < s.sp.toNat ∧ (i = .ret ∨ ∃ nnn, i = .call nnn) ∧ exec i s = .fault .noStackEntry) := by
  by_cases hcall : ∃ nnn, i = .call nnn
  · obtain ⟨nnn, rfl⟩ := hcall
    exact (exec_call_cases nnn s).imp_right fun ⟨hsp, h⟩ => ⟨hsp, .inr ⟨nnn, rfl⟩, h⟩
  by_cases hret : i = .ret
  · subst hret
    exact (exec_ret_cases s).imp_right fun ⟨hsp, h⟩ => ⟨hsp, .inl rfl, h⟩
  exact .inl (exec_answers s hcall hret)

/-- Settles O15: by what an instruction can answer. -/
theorem modelStopsOnlyBeyondTheStack : Obligations.ModelStopsOnlyBeyondTheStack := by
  unfold Obligations.ModelStopsOnlyBeyondTheStack
  intro i s
  obtain ⟨t, ht⟩ | ⟨hsp, hi, hf⟩ := exec_cases i s
  · simp [ht]
  · exact ⟨fun r _ => ⟨hsp, hi⟩, fun r hr => by simp [hf] at hr⟩

/-! ### The fetch (R62, R80) -/

/-- Settles O6: the word is its two bytes, and the latch is the one part written. -/
theorem fetchIsBigEndianAndWraps : Obligations.FetchIsBigEndianAndWraps := by
  unfold Obligations.FetchIsBigEndianAndWraps
  intro s
  refine ⟨?_, keeps_latch s _⟩
  rw [show (4096 : Nat) = memSize from rfl, State.readMem_mod, State.readMem_mod]
  exact toNat_wordOfBytes _ _

/-! ### The step (R80, R302, R304) -/

theorem step_of_decode {s : State} {i : Instr} {rest : List Byte} (hrun : s.faultCode = 0#8)
    (h : decode s.fetchBytes = .ok (i, rest)) : step s = exec i s.fetched := by
  obtain ⟨hhalt, -⟩ | ⟨-, j, rest', hj, hs⟩ | ⟨-, ⟨e, he⟩, -⟩ := step_cases s
  · exact absurd hrun hhalt
  · cases h.symm.trans hj
    exact hs
  · cases h.symm.trans he

theorem step_of_decodeWord {s : State} {i : Instr} (hrun : s.faultCode = 0#8)
    (h : decodeWord s.fetchWord = .ok i) : step s = exec i s.fetched :=
  step_of_decode hrun (decode_of_decodeWord [] h)

theorem step_of_unknown {s : State} {e : DecodeError} (hrun : s.faultCode = 0#8)
    (h : decodeWord s.fetchWord = .error e) : step s = .next s.fetched.unknownOpcode := by
  obtain ⟨hhalt, -⟩ | ⟨-, j, rest, hj, -⟩ | ⟨-, -, hs⟩ := step_cases s
  · exact absurd hrun hhalt
  · rw [State.decode_fetchBytes, h] at hj
    cases hj
  · exact hs

/-- Settles O7: the bytes at pc and pc + 1 are those the fetch reads. -/
theorem stepRunsTheDecodedInstruction : Obligations.StepRunsTheDecodedInstruction := by
  unfold Obligations.StepRunsTheDecodedInstruction
  intro s i rest hrun h
  exact step_of_decode hrun h

/-- Settles O8: the bytes make up the word the encoder wrote, which decodes to its instruction. -/
theorem stepRunsTheEncodedInstruction : Obligations.StepRunsTheEncodedInstruction := by
  unfold Obligations.StepRunsTheEncodedInstruction
  intro s i hrun hhi hlo
  have hword : s.fetchWord = encode i := by
    rw [State.fetchWord, hhi, hlo, wordOfBytes_high_low]
  rw [step_of_decodeWord hrun (hword ▸ decodeWord_encode i), State.fetched, hword]

/-- Settles O9: the check on FAULT_CODE comes before the fetch. -/
theorem haltedStepChangesNothing : Obligations.HaltedStepChangesNothing := by
  unfold Obligations.HaltedStepChangesNothing
  intro s hhalt
  exact if_pos ((State.halted_iff s).mpr hhalt)

/-! ### Unknown opcodes (R304) -/

theorem toNat_traceUnknown_unkCount (s : State) :
    s.traceUnknown.unkCount.toNat = min (s.unkCount.toNat + 1) 0xFFFF := by
  rw [State.traceUnknown_unkCount, BitVec.toNat_ofNat]
  omega

theorem skipTraced_traceUnknown_advance (s : State) : SkipTraced s s.traceUnknown.advance :=
  ⟨toNat_traceUnknown_unkCount s, rfl, rfl, pcIs_advance _,
    (keeps_traceUnknown s).comp (keeps_advance _)⟩

/-- Everything an unknown opcode does, by UNKNOWN_OPCODE_POLICY. -/
theorem unknownOpcode_faults_or_skips (s : State) :
    (s.config.unknownOpcodePolicy = .fault → FaultTaken s s.unknownOpcode 0x01) ∧
    (s.config.unknownOpcodePolicy = .skip → SkipTraced s s.unknownOpcode) := by
  constructor
  · intro h
    rw [State.unknownOpcode_fault h]
    exact faultTaken_raise s .unknownOpcode
  · intro h
    rw [State.unknownOpcode_skip h]
    exact skipTraced_traceUnknown_advance s

/-- A step at a word the configuration does not know is an unknown opcode, also where the word is 8xy7 and
the decoder reads it (log 3). -/
theorem step_of_unknownWord {s : State} (hrun : s.faultCode = 0#8)
    (h : UnknownWord s.config s.fetchWord) : step s = .next s.fetched.unknownOpcode := by
  have hno := (unknownWordsAreExactlyTheListed s.config s.fetchWord).mpr h
  cases hd : decodeWord s.fetchWord with
  | error e => exact step_of_unknown hrun hd
  | ok i =>
    have hwf : i.wellFormed s.config ≠ true := fun hwf => hno ⟨i, decodeFor_eq_ok_iff.mpr ⟨hd, hwf⟩⟩
    rw [step_of_decodeWord hrun hd]
    cases i with
    | subn x y => exact exec_subn_of_absent x y (Bool.not_eq_true _ ▸ hwf)
    | _ => exact absurd rfl hwf

/-- Settles O10: the step is an unknown opcode, whose effect the policy gives. -/
theorem unknownWordFaultsOrIsSkipped : Obligations.UnknownWordFaultsOrIsSkipped := by
  unfold Obligations.UnknownWordFaultsOrIsSkipped
  intro s hrun h
  exact ⟨_, step_of_unknownWord hrun h, unknownOpcode_faults_or_skips s.fetched⟩

/-- Settles O40: without HAS_SUBN the instruction is an unknown opcode. -/
theorem reverseSubtractAbsentIsUnknown : Obligations.ReverseSubtractAbsentIsUnknown := by
  unfold Obligations.ReverseSubtractAbsentIsUnknown
  intro s x y hsub
  exact ⟨_, exec_subn_of_absent x y hsub, unknownOpcode_faults_or_skips s⟩

end Sys2Proof.Machine
end

section
/-! The invariant of the machine (spec 10_state.md R26, R33, R40-R44): a reset meets it, every step and every
host event keeps it, so every reachable state has it, and from such a state a STEP always answers. -/

namespace Sys2Proof.Machine

/-! ### Reset (R400) -/

theorem stateInv_resetWith (cfg : Config) : StateInv (State.resetWith cfg) where
  memory := Memory.wf_writeBytes Memory.wf_nil 0 _
  pc := (by decide : State.reset.pc.toNat < memSize)
  sp := (by decide : State.reset.sp.toNat ≤ stackDepth)
  stack k := by simp [State.resetWith, State.reset, Vector.get_eq_getElem]
  faultCode := (by decide : State.reset.faultCode.toNat ≤ 4)
  noFault _ := ⟨rfl, rfl⟩
  halted h := absurd rfl h
  noTrace _ := ⟨rfl, rfl, rfl⟩
  noUnknownFault _ := (by decide : State.reset.faultCode ≠ 1#8)

/-- The default font's bytes are what unlisted addresses read as, so none of them is listed (log 9). -/
theorem writeBytes_defaultFont : Memory.writeBytes [] 0 defaultFont.toList = [] := by decide +kernel

/-- Settles O11: the fields of the reset state meet the clauses, and the default font lists no byte. -/
theorem resetMeetsTheInvariant : Obligations.ResetMeetsTheInvariant := by
  unfold Obligations.ResetMeetsTheInvariant
  refine ⟨stateInv_resetWith, ?_⟩
  rw [State.resetWith, show defaultConfig.font = defaultFont from rfl, writeBytes_defaultFont]
  rfl

/-! ### What keeps the invariant -/

/-- The invariant's clauses on the fault registers say nothing of a running CORE's latch, so what keeps the
fault registers of a running CORE keeps these clauses. -/
theorem StateInv.of_running {s t : State} (h : StateInv s) (hrun : s.faultCode = 0#8)
    (hmem : Memory.wf t.mem) (hpc : t.pc.toNat < memSize) (hsp : t.sp.toNat ≤ stackDepth)
    (hstack : ∀ k, (t.stack.get k).toNat < memSize) (hconfig : t.config = s.config)
    (hfault : Part.same s t .fault)
    (htrace : s.config.unknownOpcodePolicy = .fault → Part.same s t .trace) : StateInv t := by
  obtain ⟨hcode, hfpc, hfop⟩ := hfault
  have hcode0 : t.faultCode = 0#8 := hcode.trans hrun
  refine ⟨hmem, hpc, hsp, hstack, by simp [hcode0], fun _ => ?_, fun hh => absurd hcode0 hh, ?_, ?_⟩
  · rw [hfpc, hfop]
    exact h.noFault hrun
  · rw [hconfig]
    intro hpol
    obtain ⟨hcount, hlpc, hlop⟩ := htrace hpol
    rw [hcount, hlpc, hlop]
    exact h.noTrace hpol
  · intro _
    simp [hcode0]

theorem StateInv.latch {s : State} (h : StateInv s) (hrun : s.faultCode = 0#8) (w : Word) :
    StateInv (s.latch w) :=
  h.of_running hrun h.memory h.pc h.sp h.stack rfl ⟨rfl, rfl, rfl⟩ fun _ => ⟨rfl, rfl, rfl⟩

theorem FaultCause.toNat_code_le (c : FaultCause) : c.code.toNat ≤ 4 := by cases c <;> decide

theorem FaultCause.code_ne_zero (c : FaultCause) : c.code ≠ 0#8 := by cases c <;> decide

theorem FaultCause.eq_unknownOpcode_of_code {c : FaultCause} (h : c.code = 1#8) : c = .unknownOpcode := by
  cases c with
  | unknownOpcode => rfl
  | stackOverflow | stackUnderflow | keyIndexRange => cases h

/-- A fault entry keeps the invariant; UnknownOpcode is raised under the policy `fault` alone. -/
theorem StateInv.raise {s : State} (h : StateInv s) {c : FaultCause}
    (hc : c = .unknownOpcode → s.config.unknownOpcodePolicy = .fault) : StateInv (s.raise c) where
  memory := h.memory
  pc := h.pc
  sp := h.sp
  stack := h.stack
  faultCode := c.toNat_code_le
  noFault h0 := absurd h0 c.code_ne_zero
  halted _ := ⟨rfl, rfl⟩
  noTrace := h.noTrace
  noUnknownFault hskip h1 := by
    cases (hc (FaultCause.eq_unknownOpcode_of_code h1)).symm.trans hskip

theorem StateInv.unknownOpcode {s : State} (h : StateInv s) (hrun : s.faultCode = 0#8) :
    StateInv s.unknownOpcode := by
  obtain ⟨hpol, hu⟩ | ⟨hpol, hu⟩ := s.unknownOpcode_cases
  · rw [hu]
    exact h.raise fun _ => hpol
  · rw [hu]
    refine h.of_running hrun h.memory ?_ h.sp h.stack rfl ⟨rfl, rfl, rfl⟩ fun hf => ?_
    · rw [State.toNat_advance_pc]
      exact Nat.mod_lt _ (by decide)
    · cases hpol.symm.trans hf

/-! ### What an instruction keeps -/

theorem State.setVs_mem (s : State) (k : Nat) (bs : List Byte) : (s.setVs k bs).mem = s.mem := by
  obtain ⟨v, hv⟩ := s.setVs_frame k bs
  rw [hv]

theorem State.writeFlagged_mem (s : State) (x : Nibble) (res f : Byte) :
    (s.writeFlagged x res f).mem = s.mem := by
  obtain ⟨v, hv⟩ := s.writeFlagged_frame x res f
  rw [hv]

theorem State.unknownOpcode_mem (s : State) : s.unknownOpcode.mem = s.mem := by
  obtain ⟨-, hu⟩ | ⟨-, hu⟩ := s.unknownOpcode_cases <;> rw [hu] <;> rfl

/-- An instruction leaves the memory list or stores bytes in it. -/
theorem exec_mem {i : Instr} {s t : State} (h : exec i s = .next t) :
    t.mem = s.mem ∨ ∃ a bs, t.mem = Memory.writeBytes s.mem a bs := by
  cases i with
  | ldB _ | ldMemVx _ => cases h; exact .inr ⟨_, _, rfl⟩
  | ret => obtain ⟨-, rfl⟩ | ⟨-, -, rfl⟩ := exec_ret_eq_next.mp h <;> exact .inl rfl
  | call nnn => obtain ⟨-, rfl⟩ | ⟨-, -, rfl⟩ := exec_call_eq_next.mp h <;> exact .inl rfl
  | skp x => rw [exec_skp_eq] at h; cases h; split <;> exact .inl rfl
  | sknp x => rw [exec_sknp_eq] at h; cases h; split <;> exact .inl rfl
  | addReg _ _ | sub _ _ | shr _ _ | shl _ _ => cases h; exact .inl (s.writeFlagged_mem _ _ _)
  | ldVxMem _ => cases h; exact .inl (s.setVs_mem _ _)
  | subn x y =>
    cases hsub : s.config.hasSubn with
    | false =>
      cases (exec_subn_of_absent x y hsub).symm.trans h
      exact .inl s.unknownOpcode_mem
    | true =>
      cases (exec_subn_of_present x y hsub).symm.trans h
      exact .inl (s.writeFlagged_mem _ _ _)
  | addI x =>
    cases hvf : s.config.addISetsVF with
    | false => cases (exec_addI_without_flag x hvf).symm.trans h; exact .inl rfl
    | true => cases (exec_addI_with_flag x hvf).symm.trans h; exact .inl rfl
  | ldVxK x =>
    cases hk : s.firstKey with
    | none => cases (exec_ldVxK_of_no_key x hk).symm.trans h; exact .inl rfl
    | some k => cases (exec_ldVxK_of_key x hk).symm.trans h; exact .inl rfl
  | _ => cases h; exact .inl rfl

theorem exec_keeps_wf {i : Instr} {s t : State} (hs : Memory.wf s.mem) (h : exec i s = .next t) :
    Memory.wf t.mem := by
  obtain hm | ⟨a, bs, hm⟩ := exec_mem h
  · rwa [hm]
  · rw [hm]
    exact Memory.wf_writeBytes hs a bs

/-- The writers of sp (R33). -/
theorem call_or_ret_of_writes_sp {cfg : Config} {i : Instr} (h : .sp ∈ writableParts cfg i) :
    (∃ nnn, i = .call nnn) ∨ i = .ret := by
  cases i with
  | call nnn => exact .inl ⟨nnn, rfl⟩
  | ret => exact .inr rfl
  | subn _ _ | addI _ =>
    simp only [writableParts] at h
    split at h <;> simp at h
  | _ => simp [writableParts] at h

/-- The writer of the trace among the instructions (R42, R168). -/
theorem subn_absent_of_writes_trace {cfg : Config} {i : Instr} (h : .trace ∈ writableParts cfg i) :
    (∃ x y, i = .subn x y) ∧ cfg.hasSubn = false := by
  cases i with
  | subn x y =>
    refine ⟨⟨x, y, rfl⟩, ?_⟩
    cases hsub : cfg.hasSubn with
    | false => rfl
    | true => simp [writableParts, hsub] at h
  | addI _ =>
    simp only [writableParts] at h
    split at h <;> simp at h
  | _ => simp [writableParts] at h

/-- Under the policy `fault` no instruction writes the trace (R42). -/
theorem exec_keeps_trace {i : Instr} {s t : State} (h : exec i s = .next t)
    (hpol : s.config.unknownOpcodePolicy = .fault) : Part.same s t .trace := by
  by_cases htrace : .trace ∈ writableParts s.config i
  · obtain ⟨⟨x, y, rfl⟩, hsub⟩ := subn_absent_of_writes_trace htrace
    cases (exec_subn_of_absent x y hsub).symm.trans h
    rw [State.unknownOpcode_fault hpol]
    exact ⟨rfl, rfl, rfl⟩
  · exact exec_frame h .trace htrace

theorem exec_keeps_config {i : Instr} {s t : State} (h : exec i s = .next t) : t.config = s.config := by
  refine exec_frame h .config ?_
  cases i with
  | subn _ _ | addI _ =>
    simp only [writableParts]
    split <;> simp
  | _ => simp [writableParts]

theorem toNat_sp_add_one {n : BitVec 5} (h : n.toNat < stackDepth) : (n + 1).toNat = n.toNat + 1 := by
  unfold stackDepth at h
  rw [BitVec.toNat_add_of_lt] <;> simp
  omega

theorem toNat_sp_sub_one {n : BitVec 5} (h : n ≠ 0#5) : (n - 1).toNat = n.toNat - 1 := by
  have hpos : n.toNat ≠ 0 := fun h0 => h (BitVec.eq_of_toNat_eq h0)
  rw [BitVec.toNat_sub_of_le (by rw [BitVec.le_def]; simp; omega)]
  rfl

theorem get_stack_set (z : Vector Word stackDepth) {n : Nat} (hn : n < stackDepth) (w : Word)
    (k : Fin stackDepth) : (z.set n w hn).get k = if n = k.val then w else z.get k := by
  simp [Vector.get_eq_getElem, Vector.getElem_set]

theorem toNat_ofNat_mod_memSize (n : Nat) : (BitVec.ofNat 16 (n % memSize)).toNat = n % memSize := by
  rw [BitVec.toNat_ofNat]
  unfold memSize
  omega

/-- CALL pushes below the bound and RET pops above 0; no other instruction writes sp or the stack. -/
theorem exec_keeps_stack_bounds {i : Instr} {s t : State} (hsp : s.sp.toNat ≤ stackDepth)
    (hstack : ∀ k : Fin stackDepth, (s.stack.get k).toNat < memSize) (h : exec i s = .next t) :
    t.sp.toNat ≤ stackDepth ∧ ∀ k : Fin stackDepth, (t.stack.get k).toNat < memSize := by
  by_cases hcall : ∃ nnn, i = .call nnn
  · obtain ⟨nnn, rfl⟩ := hcall
    obtain ⟨-, rfl⟩ | ⟨-, hin, rfl⟩ := exec_call_eq_next.mp h
    · exact ⟨hsp, hstack⟩
    · refine ⟨(toNat_sp_add_one hin).trans_le hin, fun k => ?_⟩
      rw [State.jump_stack, get_stack_set]
      split
      · rw [toNat_ofNat_mod_memSize]
        exact Nat.mod_lt _ (by decide)
      · exact hstack k
  by_cases hret : i = .ret
  · subst hret
    obtain ⟨-, rfl⟩ | ⟨hempty, -, rfl⟩ := exec_ret_eq_next.mp h
    · exact ⟨hsp, hstack⟩
    · exact ⟨(toNat_sp_sub_one hempty).trans_le (Nat.sub_le_of_le_add (Nat.le_succ_of_le hsp)), hstack⟩
  have hsp' : t.sp = s.sp := exec_frame h .sp fun hmem =>
    (call_or_ret_of_writes_sp hmem).elim hcall hret
  rw [hsp', (exec_keeps_stack_and_keys hcall hret h).1]
  exact ⟨hsp, hstack⟩

/-- What R301 lists as UnknownOpcode is raised under the policy `fault` alone. -/
theorem policy_of_raisedBy {i : Instr} {s : State} {c : FaultCause} (h : raisedBy s i = some c)
    (hc : c = .unknownOpcode) : s.config.unknownOpcodePolicy = .fault := by
  subst hc
  cases i with
  | subn _ _ => exact (by simpa [raisedBy] using h : _ ∧ _).2
  | ret | call _ | skp _ | sknp _ => simp [raisedBy] at h
  | _ => cases h

/-- An instruction of a running CORE keeps the invariant: it faults, or each clause is kept by what the
instructions write. -/
theorem StateInv.exec {i : Instr} {s t : State} (hs : StateInv s) (hrun : s.faultCode = 0#8)
    (h : exec i s = .next t) : StateInv t := by
  cases hc : raisedBy s i with
  | some c =>
    cases (exec_of_raisedBy hc).symm.trans h
    exact hs.raise (policy_of_raisedBy hc)
  | none =>
    obtain ⟨hsp, hstack⟩ := exec_keeps_stack_bounds hs.sp hs.stack h
    have hpc : t.pc.toNat < memSize :=
      (nextPcIsTheTables i s t hs.pc h).trans_lt (Nat.mod_lt _ (by decide))
    exact hs.of_running hrun (exec_keeps_wf hs.memory h) hpc hsp hstack (exec_keeps_config h)
      (exec_keeps_fault h hc) (exec_keeps_trace h)

/-- Settles O12: halted the step changes nothing; running it is an instruction or an unknown opcode at the
latched state. -/
theorem stepKeepsTheInvariant : Obligations.StepKeepsTheInvariant := by
  unfold Obligations.StepKeepsTheInvariant
  intro s t hs h
  obtain ⟨-, hstep⟩ | ⟨hrun, i, rest, -, hstep⟩ | ⟨hrun, -, hstep⟩ := step_cases s
  · cases hstep.symm.trans h
    exact hs
  · exact (hs.latch hrun s.fetchWord).exec hrun (hstep.symm.trans h)
  · cases hstep.symm.trans h
    exact (hs.latch hrun _).unknownOpcode hrun

/-! ### The host's events -/

/-- Memory in canonical form is all the invariant asks of a change of memory. -/
theorem StateInv.writeMemBytes {s : State} (h : StateInv s) (a : Nat) (bs : List Byte) :
    StateInv (s.writeMemBytes a bs) :=
  ⟨Memory.wf_writeBytes h.memory a bs, h.pc, h.sp, h.stack, h.faultCode, h.noFault, h.halted, h.noTrace,
    h.noUnknownFault⟩

theorem StateInv.tick {s : State} (h : StateInv s) : StateInv s.tick :=
  ⟨h.memory, h.pc, h.sp, h.stack, h.faultCode, h.noFault, h.halted, h.noTrace, h.noUnknownFault⟩

theorem StateInv.setKeys {s : State} (h : StateInv s) (k : BitVec 16) : StateInv (s.setKeys k) :=
  ⟨h.memory, h.pc, h.sp, h.stack, h.faultCode, h.noFault, h.halted, h.noTrace, h.noUnknownFault⟩

theorem StateInv.load {s : State} (h : StateInv s) (image : List Byte) : StateInv (s.load image) := by
  unfold State.load
  split
  · exact h.writeMemBytes _ _
  · exact h

theorem stateInv_resetEvent (s : State) : StateInv s.resetEvent :=
  let h := stateInv_resetWith s.config
  ⟨h.memory, h.pc, h.sp, h.stack, h.faultCode, h.noFault, h.halted, h.noTrace, h.noUnknownFault⟩

theorem StateInv.supplyRandom {s : State} (h : StateInv s) (b : Byte) : StateInv (s.supplyRandom b) :=
  ⟨h.memory, h.pc, h.sp, h.stack, h.faultCode, h.noFault, h.halted, h.noTrace, h.noUnknownFault⟩

/-- Settles O13: the events write no field the invariant speaks of but memory, or reset the machine. -/
theorem hostEventsKeepTheInvariant : Obligations.HostEventsKeepTheInvariant := by
  unfold Obligations.HostEventsKeepTheInvariant
  intro s h
  exact ⟨h.tick, h.setKeys, h.load, stateInv_resetEvent s, h.supplyRandom⟩

/-! ### Reachable states -/

theorem StateInv.applyEvent {e : Event} {s t : State} (hs : StateInv s) (h : applyEvent e s = .next t) :
    StateInv t := by
  cases e with
  | step => exact stepKeepsTheInvariant s t hs h
  | tick => cases h; exact hs.tick
  | keys k => cases h; exact hs.setKeys k
  | load image => cases h; exact hs.load image
  | reset => cases h; exact stateInv_resetEvent s

theorem Reachable.stateInv {s : State} (h : Reachable s) : StateInv s := by
  induction h with
  | reset cfg => exact stateInv_resetWith cfg
  | event e _ he ih => exact ih.applyEvent he
  | supply b _ ih => exact ih.supplyRandom b

/-- With sp in 0..16 a STEP answers a next state. -/
theorem step_answers {s : State} (hsp : s.sp.toNat ≤ stackDepth) : ∃ t, step s = .next t := by
  obtain ⟨-, hstep⟩ | ⟨-, i, rest, -, hstep⟩ | ⟨-, -, hstep⟩ := step_cases s
  · exact ⟨_, hstep⟩
  · obtain ⟨t, ht⟩ | ⟨hout, -, -⟩ := exec_cases i s.fetched
    · exact ⟨t, hstep.trans ht⟩
    · exact absurd hout (Nat.not_lt.mpr hsp)
  · exact ⟨_, hstep⟩

/-- Settles O14: a reachable state meets the invariant, whose bound on sp lets every step answer. -/
theorem reachableStatesAlwaysStep : Obligations.ReachableStatesAlwaysStep := by
  unfold Obligations.ReachableStatesAlwaysStep
  intro s hs
  obtain ⟨t, ht⟩ := step_answers hs.stateInv.sp
  exact ⟨t, ht, .event .step hs ht⟩

end Sys2Proof.Machine
end

section
/-! Control transfer and register arithmetic (spec 41_control_flow.md R120-R128, 42_alu.md R150-R168): the
result of each instruction. Its frame is that of O16, its registers those of O17. -/

namespace Sys2Proof.Machine

/-! ### Jumps and skips (R121, R123-R128) -/

/-- Settles O28: a 12-bit target is its own remainder mod 4096. -/
theorem jumpGoesToTheAddress : Obligations.JumpGoesToTheAddress := by
  unfold Obligations.JumpGoesToTheAddress
  intro s nnn
  exact ⟨s.jump nnn.toNat, rfl, (pcIs_jump s _).trans (Nat.mod_eq_of_lt nnn.isLt), keeps_jump s _⟩

/-- Settles O33: the jump takes the sum mod 4096. -/
theorem offsetJumpAddsV0 : Obligations.OffsetJumpAddsV0 := by
  unfold Obligations.OffsetJumpAddsV0
  intro s nnn
  exact ⟨s.jump (s.offsetTarget nnn), rfl, pcIs_jump s _, keeps_jump s _⟩

/-- Settles O31: the skip's condition is the comparison of register and immediate. -/
theorem immediateSkipsAdvanceByFourOrTwo : Obligations.ImmediateSkipsAdvanceByFourOrTwo := by
  unfold Obligations.ImmediateSkipsAdvanceByFourOrTwo
  intro s x kk
  exact ⟨⟨s.skipIf (s.getV x == kk), rfl, pcIs_skipIf beq_iff_eq, keeps_skipIf s _⟩,
    ⟨s.skipIf (s.getV x != kk), rfl, pcIs_skipIf bne_iff_ne, keeps_skipIf s _⟩⟩

/-- Settles O32: the skip's condition is the comparison of the two registers. -/
theorem registerSkipsAdvanceByFourOrTwo : Obligations.RegisterSkipsAdvanceByFourOrTwo := by
  unfold Obligations.RegisterSkipsAdvanceByFourOrTwo
  intro s x y
  exact ⟨⟨s.skipIf (s.getV x == s.getV y), rfl, pcIs_skipIf beq_iff_eq, keeps_skipIf s _⟩,
    ⟨s.skipIf (s.getV x != s.getV y), rfl, pcIs_skipIf bne_iff_ne, keeps_skipIf s _⟩⟩

/-! ### Call and return (R120, R122) -/

/-- CALL with sp in 0..15. -/
theorem exec_call_pushes {s : State} {k : Fin stackDepth} (nnn : Addr12) (h : s.sp.toNat = k.val) :
    exec (.call nnn) s = .next (State.jump { s with
      stack := s.stack.set k.val (BitVec.ofNat 16 ((s.pc.toNat + 2) % memSize)) k.isLt
      sp := s.sp + 1 } nnn.toNat) := by
  have hfull : s.sp ≠ 16#5 := fun e => k.isLt.ne (h.symm.trans (congrArg BitVec.toNat e))
  refine exec_call_eq_next.mpr (.inr ⟨hfull, h.trans_lt k.isLt, ?_⟩)
  simp only [h]

/-- RET with sp in 1..16. -/
theorem exec_ret_pops {s : State} {k : Fin stackDepth} (h : s.sp.toNat = k.val + 1) :
    exec .ret s = .next (State.jump { s with sp := s.sp - 1 } (s.stack.get k).toNat) := by
  have hempty : s.sp ≠ 0#5 := fun e => Nat.succ_ne_zero _ (h.symm.trans (congrArg BitVec.toNat e))
  refine exec_ret_eq_next.mpr (.inr ⟨hempty, by omega, ?_⟩)
  simp only [h, Nat.add_sub_cancel]
  rfl

/-- Settles O27: StackUnderflow with sp = 0, else the entry below sp. -/
theorem returnPopsOrUnderflows : Obligations.ReturnPopsOrUnderflows := by
  unfold Obligations.ReturnPopsOrUnderflows
  intro s
  refine ⟨fun hsp => ?_, fun k hk => ?_⟩
  · have hraise : raisedBy s .ret = some .stackUnderflow := if_pos hsp
    exact ⟨_, exec_of_raisedBy hraise, faultTaken_raise s .stackUnderflow⟩
  · have hempty : s.sp ≠ 0#5 := fun e => Nat.succ_ne_zero _ (hk.symm.trans (congrArg BitVec.toNat e))
    refine ⟨_, exec_ret_pops hk, pcIs_jump _ _, ?_, keeps_pop s _ _⟩
    rw [State.jump_sp, toNat_sp_sub_one hempty, hk, Nat.add_sub_cancel]

/-- Settles O29: StackOverflow with sp = 16, else a push at sp and a jump. -/
theorem callPushesOrOverflows : Obligations.CallPushesOrOverflows := by
  unfold Obligations.CallPushesOrOverflows
  intro s nnn
  refine ⟨fun hsp => ?_, fun k hk => ⟨_, exec_call_pushes nnn hk, ?_, ?_, ?_, ?_, keeps_push s _ _ _⟩⟩
  · have hraise : raisedBy s (.call nnn) = some .stackOverflow := if_pos hsp
    exact ⟨_, exec_of_raisedBy hraise, faultTaken_raise s .stackOverflow⟩
  · exact (pcIs_jump _ _).trans (Nat.mod_eq_of_lt nnn.isLt)
  · rw [State.jump_sp, toNat_sp_add_one (hk.trans_lt k.isLt), hk]
  · rw [State.jump_stack, get_stack_set, if_pos rfl]
    exact toNat_ofNat_mod_memSize _
  · intro j hj
    rw [State.jump_stack, get_stack_set, if_neg fun e => hj (Fin.ext e.symm)]

/-- Settles O30: the entry RET pops is the one CALL pushed, and sp goes up and down by 1. -/
theorem returnResumesAfterTheCall : Obligations.ReturnResumesAfterTheCall := by
  unfold Obligations.ReturnResumesAfterTheCall
  intro s nnn hsp
  have hcall := exec_call_pushes (s := s) (k := ⟨s.sp.toNat, hsp⟩) nnn rfl
  refine ⟨_, _, hcall, exec_ret_pops (k := ⟨s.sp.toNat, hsp⟩) (toNat_sp_add_one hsp), ?_, ?_, ?_⟩
  · refine (pcIs_jump _ _).trans ?_
    rw [State.jump_stack, get_stack_set, if_pos rfl, toNat_ofNat_mod_memSize, Nat.mod_mod]
  · exact BitVec.add_sub_cancel s.sp 1
  · intro p hp
    by_cases hp_sp : p = .sp
    · subst hp_sp
      exact BitVec.add_sub_cancel s.sp 1
    · exact ((keeps_push s _ _ _).comp (keeps_pop _ _ _)) p (by simp_all)

/-! ### Loads, additions and logic (R152-R157) -/

theorem getV_setV_advance (s : State) (x : Nibble) (b : Byte) : (s.setV x b).advance.getV x = b :=
  s.getV_setV_same x b

/-- What an instruction that writes one register and advances does besides. -/
theorem setV_advance_frames (s : State) (x : Nibble) (b : Byte) :
    PcIs (s.setV x b).advance (s.pc.toNat + 2) ∧ KeepsRegsBut [x] s (s.setV x b).advance ∧
      KeepsAllBut [.regs, .pc] s (s.setV x b).advance :=
  ⟨pcIs_advance _, fun _ hr => s.getV_setV_ne b fun e => hr (List.mem_singleton.mpr e),
    (keeps_setV s x b).comp (keeps_advance _)⟩

/-- Settles O34: the register written reads as the value loaded. -/
theorem loadsOfImmediateAndRegister : Obligations.LoadsOfImmediateAndRegister := by
  unfold Obligations.LoadsOfImmediateAndRegister
  exact ⟨fun s x kk => ⟨_, rfl, getV_setV_advance s x kk, setV_advance_frames s x kk⟩,
    fun s x y => ⟨_, rfl, getV_setV_advance s x _, setV_advance_frames s x _⟩⟩

/-- Settles O35: a sum of bytes is the sum mod 256. -/
theorem addImmediateWrapsWithoutFlag : Obligations.AddImmediateWrapsWithoutFlag := by
  unfold Obligations.AddImmediateWrapsWithoutFlag
  intro s x kk
  refine ⟨_, rfl, ?_, setV_advance_frames s x _⟩
  rw [getV_setV_advance]
  exact BitVec.toNat_add _ _

/-- Settles O36: the bits of the register written are the operation's, bit by bit. -/
theorem logicWorksBitByBitWithoutFlag : Obligations.LogicWorksBitByBitWithoutFlag := by
  unfold Obligations.LogicWorksBitByBitWithoutFlag
  intro s x y
  refine ⟨⟨_, rfl, fun b _ => ?_, setV_advance_frames s x _⟩,
    ⟨_, rfl, fun b _ => ?_, setV_advance_frames s x _⟩,
    ⟨_, rfl, fun b _ => ?_, setV_advance_frames s x _⟩⟩
  · rw [getV_setV_advance, BitVec.getLsbD_or]
  · rw [getV_setV_advance, BitVec.getLsbD_and]
  · rw [getV_setV_advance, BitVec.getLsbD_xor]

/-! ### Results with a flag (R151, R158-R168) -/

/-- VF holds a flag byte whose bit is the condition. -/
theorem flagIs_of_getV {t : State} {b : Bool} {p : Prop} (h : t.getV vF = flagByte b)
    (hb : b = true ↔ p) : FlagIs t p := by
  refine ⟨fun hp => ?_, fun hp => ?_⟩
  · rw [h, flagByte_eq_one, hb]
    exact hp
  · rw [h, flagByte_eq_zero, ← Bool.not_eq_true, hb]
    exact hp

/-- Everything a result and a flag written together are, in the order FLAG_ORDER gives. -/
theorem resultAndFlag_writeFlagged {s : State} {x : Nibble} {res : Byte} {b : Bool} {n : Nat} {p : Prop}
    (hres : res.toNat = n % 256) (hb : b = true ↔ p) :
    ResultAndFlag s (s.writeFlagged x res (flagByte b)).advance x n p := by
  refine ⟨fun r hr => s.getV_writeFlagged_ne _ _ (by simpa using hr), fun hx => ?_, fun hx => ?_⟩
  · rw [State.advance_getV, State.getV_writeFlagged, if_pos, hres]
    exact ⟨rfl, fun e => hx.resolve_left (not_not.mpr e)⟩
  · refine flagIs_of_getV ?_ hb
    rw [State.advance_getV, State.getV_writeFlagged, if_neg, if_pos rfl]
    rintro ⟨e, horder⟩
    have hr := hx.resolve_left (not_not.mpr e.symm)
    cases (horder e.symm).symm.trans hr

theorem pcIs_writeFlagged_advance (s : State) (x : Nibble) (res f : Byte) :
    PcIs (s.writeFlagged x res f).advance (s.pc.toNat + 2) :=
  pcIs_advance_of_same (keeps_writeFlagged s x res f .pc (by simp))

/-- A difference of bytes, mod 256 and without a negative number. -/
theorem toNat_sub_byte (a b : Byte) : (a - b).toNat = (a.toNat + 256 - b.toNat) % 256 := by
  have := b.isLt
  rw [BitVec.toNat_sub]
  congr 1
  omega

/-- Settles O37: the sum mod 256, and the carry where the exact sum is above 255. -/
theorem addRegisterSetsCarry : Obligations.AddRegisterSetsCarry := by
  unfold Obligations.AddRegisterSetsCarry
  intro s x y
  exact ⟨_, rfl, resultAndFlag_writeFlagged (BitVec.toNat_add _ _) decide_eq_true_iff,
    pcIs_writeFlagged_advance s _ _ _, exec_frame (i := .addReg x y) rfl⟩

/-- Settles O38: the difference mod 256, and not-borrow where V[x] is no smaller. -/
theorem subtractSetsNotBorrow : Obligations.SubtractSetsNotBorrow := by
  unfold Obligations.SubtractSetsNotBorrow
  intro s x y
  exact ⟨_, rfl, resultAndFlag_writeFlagged (toNat_sub_byte _ _) decide_eq_true_iff,
    pcIs_writeFlagged_advance s _ _ _, exec_frame (i := .sub x y) rfl⟩

/-- Settles O39: as O38 with the operands exchanged, where the instruction is present. -/
theorem reverseSubtractSetsNotBorrow : Obligations.ReverseSubtractSetsNotBorrow := by
  unfold Obligations.ReverseSubtractSetsNotBorrow
  intro s x y hsub
  have hexec := exec_subn_of_present x y hsub
  refine ⟨_, hexec, resultAndFlag_writeFlagged (toNat_sub_byte _ _) decide_eq_true_iff,
    pcIs_writeFlagged_advance s _ _ _, (exec_frame hexec).mono ?_⟩
  simp [writableParts, hsub]

theorem toNat_shiftRight_one (a : Byte) : (a >>> 1).toNat = a.toNat / 2 % 256 := by
  have := a.isLt
  rw [BitVec.toNat_ushiftRight, Nat.shiftRight_eq_div_pow]
  omega

theorem toNat_shiftLeft_one (a : Byte) : (a <<< 1).toNat = a.toNat * 2 % 256 := by
  rw [BitVec.toNat_shiftLeft, Nat.shiftLeft_eq]

theorem getLsbD_zero_iff_odd (a : Byte) : a.getLsbD 0 = true ↔ a.toNat % 2 = 1 := by
  simp [BitVec.getLsbD, Nat.testBit_zero]

theorem getLsbD_seven_iff (a : Byte) : a.getLsbD 7 = true ↔ a.toNat ≥ 128 := by
  have := a.isLt
  simp [BitVec.getLsbD, Nat.testBit_eq_decide_div_mod_eq]
  omega

/-- Settles O41: a shift by 1 halves or doubles, and the bit shifted out is the end bit. -/
theorem shiftsMoveTheEndBitToVF : Obligations.ShiftsMoveTheEndBitToVF := by
  unfold Obligations.ShiftsMoveTheEndBitToVF
  intro s x y
  exact ⟨⟨_, rfl, resultAndFlag_writeFlagged (toNat_shiftRight_one _) (getLsbD_zero_iff_odd _),
      pcIs_writeFlagged_advance s _ _ _, exec_frame (i := .shr x y) rfl⟩,
    ⟨_, rfl, resultAndFlag_writeFlagged (toNat_shiftLeft_one _) (getLsbD_seven_iff _),
      pcIs_writeFlagged_advance s _ _ _, exec_frame (i := .shl x y) rfl⟩⟩

end Sys2Proof.Machine
end

section
/-! The index register and memory, the random input, the keys and the timers (spec 43_index_memory.md
R180-R190, 44_random_timers_keys.md R200-R214): the result of each instruction. -/

namespace Sys2Proof.Machine

/-! ### The index register (R180-R184) -/

/-- Settles O42: a 12-bit address fits the 16-bit register. -/
theorem loadIndexTakesTheAddress : Obligations.LoadIndexTakesTheAddress := by
  unfold Obligations.LoadIndexTakesTheAddress
  intro s nnn
  refine ⟨(s.setIndex nnn.toNat).advance, rfl, ?_, pcIs_advance _, exec_frame (i := .ldI nnn) rfl⟩
  have := nnn.isLt
  rw [State.advance_index, State.setIndex_index, BitVec.toNat_ofNat]
  omega

/-- Settles O44: five times a byte fits the 16-bit register. -/
theorem loadGlyphAddressTimesFive : Obligations.LoadGlyphAddressTimesFive := by
  unfold Obligations.LoadGlyphAddressTimesFive
  intro s x
  refine ⟨(s.setIndex (s.glyphAddr x)).advance, rfl, ?_, pcIs_advance _, exec_frame (i := .ldF x) rfl⟩
  have := (s.getV x).isLt
  rw [State.advance_index, State.setIndex_index, BitVec.toNat_ofNat, State.glyphAddr]
  omega

/-- Settles O43: the sum mod 65536, and its flag where ADD_I_SETS_VF. -/
theorem addIndexWrapsAtSixteenBits : Obligations.AddIndexWrapsAtSixteenBits := by
  unfold Obligations.AddIndexWrapsAtSixteenBits
  intro s x
  cases hvf : s.config.addISetsVF with
  | false =>
    have hexec := exec_addI_without_flag x hvf
    refine ⟨_, hexec, BitVec.toNat_ofNat _ _, nofun, fun _ => ?_, pcIs_advance _,
      (exec_frame hexec).mono (by simp [writableParts, hvf])⟩
    exact exec_regs_frame hexec fun r hr => by simp [WritesReg, hvf] at hr
  | true =>
    have hexec := exec_addI_with_flag x hvf
    refine ⟨_, hexec, BitVec.toNat_ofNat _ _, fun _ => ⟨?_, ?_⟩, nofun, pcIs_advance _,
      (exec_frame hexec).mono (by simp [writableParts, hvf])⟩
    · exact flagIs_of_getV (getV_setV_advance _ vF _) decide_eq_true_iff
    · exact exec_regs_frame hexec fun r hr => List.mem_singleton.mpr hr.2

/-! ### Memory at I (R61, R186-R190) -/

theorem State.addrI_eq (s : State) (k : Nat) : s.addrI k = (s.addrI 0 + k) % memSize := by
  simp [State.addrI]

/-- The k-th byte stored at I is read at I + k mod 4096. -/
theorem State.readMem_stored (s : State) (bs : List Byte) {k : Nat} (hk : k < bs.length)
    (hfit : bs.length ≤ memSize) : (s.writeMemBytes (s.addrI 0) bs).readMem (s.addrI k) = bs[k] := by
  rw [s.addrI_eq k, State.readMem_mod]
  exact State.readMem_writeMemBytes_at s _ k bs hk hfit

/-- Every other byte is kept. -/
theorem State.readMem_not_stored (s : State) (bs : List Byte) {a : Nat}
    (h : ∀ k < bs.length, a % memSize ≠ s.addrI k) :
    (s.writeMemBytes (s.addrI 0) bs).readMem a = s.readMem a :=
  State.readMem_writeMemBytes_ne s _ a bs fun k hk => s.addrI_eq k ▸ h k hk

@[simp] theorem length_bcdDigits (b : Byte) : (bcdDigits b).length = 3 := rfl

/-- Settles O45: each digit fits a byte, and the three are stored at I. -/
theorem bcdStoresThreeDigits : Obligations.BcdStoresThreeDigits := by
  unfold Obligations.BcdStoresThreeDigits
  intro s x
  have hb := (s.getV x).isLt
  have hstored := fun k hk => s.readMem_stored (bcdDigits (s.getV x)) (k := k) hk (by simp [memSize])
  refine ⟨_, rfl, ?_, ?_, ?_, fun a ha => s.readMem_not_stored _ ha, pcIs_advance _,
    exec_frame (i := .ldB x) rfl⟩
  · rw [State.advance_readMem, hstored 0 (by simp)]
    simp only [bcdDigits, List.getElem_cons_zero, BitVec.toNat_ofNat]
    omega
  · rw [State.advance_readMem, hstored 1 (by simp)]
    simp only [bcdDigits, List.getElem_cons_succ, List.getElem_cons_zero, BitVec.toNat_ofNat]
    omega
  · rw [State.advance_readMem, hstored 2 (by simp)]
    simp only [bcdDigits, List.getElem_cons_succ, List.getElem_cons_zero, BitVec.toNat_ofNat]
    omega

/-- A register up to V[x] is read back at its address after the block store. -/
theorem State.readMem_blockStored (s : State) {x r : Nibble} (h : r.toNat ≤ x.toNat) :
    (s.writeMemBytes (s.addrI 0) (s.regsUpTo x)).readMem (s.addrI r.toNat) = s.getV r := by
  have hx := x.isLt
  rw [s.readMem_stored _ (k := r.toNat), s.getElem_regsUpTo, BitVec.ofNat_toNat, BitVec.setWidth_eq]
  · rw [s.length_regsUpTo]
    omega
  · rw [s.length_regsUpTo]
    unfold memSize
    omega

/-- Settles O46: the registers in order are the bytes stored at I. -/
theorem blockStoreStoresV0ToVx : Obligations.BlockStoreStoresV0ToVx := by
  unfold Obligations.BlockStoreStoresV0ToVx
  intro s x
  refine ⟨_, rfl, fun r hr => s.readMem_blockStored hr, fun a ha => ?_, pcIs_advance _,
    exec_frame (i := .ldMemVx x) rfl⟩
  refine s.readMem_not_stored _ fun k hk => ha k ?_
  rw [s.length_regsUpTo] at hk
  omega

/-- A register up to V[x] holds the byte at its address after the block load. -/
theorem State.getV_blockLoaded (s : State) {x r : Nibble} (h : r.toNat ≤ x.toNat) :
    (s.setVs 0 (s.bytesAtI (x.toNat + 1))).getV r = s.readMem (s.addrI r.toNat) := by
  have := x.isLt
  rw [State.getV_setVs _ _ _ _ (by rw [State.length_bytesAtI]; omega), dif_pos, s.getElem_bytesAtI]
  · rfl
  · rw [State.length_bytesAtI]
    omega

/-- Settles O47: the bytes at I are loaded in the registers in order. -/
theorem blockLoadLoadsV0ToVx : Obligations.BlockLoadLoadsV0ToVx := by
  unfold Obligations.BlockLoadLoadsV0ToVx
  intro s x
  exact ⟨_, rfl, fun r hr => s.getV_blockLoaded hr, fun r hr => s.getV_block_above hr,
    pcIs_advance_of_same (keeps_setVs s 0 _ .pc (by simp)), exec_frame (i := .ldVxMem x) rfl⟩

/-- Settles O48: the load reads each register's byte where the store put it. -/
theorem blockLoadReadsBackTheStore : Obligations.BlockLoadReadsBackTheStore := by
  unfold Obligations.BlockLoadReadsBackTheStore
  intro s x
  refine ⟨_, rfl, fun t' hindex hmem => ⟨_, rfl, fun r hr => ?_⟩⟩
  have haddr : t'.addrI r.toNat = s.addrI r.toNat := by
    rw [State.addrI, hindex]
    rfl
  rw [State.advance_getV, t'.getV_blockLoaded hr, haddr, hmem]
  exact s.readMem_blockStored hr

/-! ### The random byte (R13, R200) -/

/-- Settles O49: the draw is the byte on the random input, and the host may line up any byte. -/
theorem randomMasksTheDraw : Obligations.RandomMasksTheDraw := by
  unfold Obligations.RandomMasksTheDraw
  refine ⟨fun s x kk => ?_, fun s x b => ?_⟩
  · refine ⟨(s.takeRand.setV x (s.randByte &&& kk)).advance, rfl, fun b _ => ?_, rfl, rfl,
      pcIs_advance _, ?_, exec_frame (i := .rnd x kk) rfl⟩
    · rw [getV_setV_advance, BitVec.getLsbD_and]
    · exact exec_regs_frame (i := .rnd x kk) rfl fun r => List.mem_singleton.mpr
  · refine ⟨{ s with randomInput := [b] }, _, ?_, rfl, ?_⟩
    · intro p hp
      cases p <;> simp_all [Part.same] <;> intros <;> rfl
    · rw [getV_setV_advance, State.randByte_cons rfl]
      exact BitVec.and_allOnes

/-! ### Key skips and timer moves (R202-R210) -/

/-- Settles O50: up to 0x0F no fault is raised, and the skip's condition is the key. -/
theorem keySkipsFollowTheKeypad : Obligations.KeySkipsFollowTheKeypad := by
  unfold Obligations.KeySkipsFollowTheKeypad
  intro s x hx
  have hin : ¬ 0x0F < (s.getV x).toNat := Nat.not_lt.mpr hx
  refine ⟨⟨_, exec_skp_eq x s, ?_⟩, ⟨_, exec_sknp_eq x s, ?_⟩⟩
  · rw [if_neg hin]
    exact ⟨pcIs_skipIf .rfl, keeps_skipIf s _⟩
  · rw [if_neg hin]
    exact ⟨pcIs_skipIf (by rw [Bool.not_eq_true']; rfl), keeps_skipIf s _⟩

/-- Settles O51: above 0x0F the listed fault is raised. -/
theorem keySkipsFaultBeyondTheKeypad : Obligations.KeySkipsFaultBeyondTheKeypad := by
  unfold Obligations.KeySkipsFaultBeyondTheKeypad
  intro s x hx
  have hskp : raisedBy s (.skp x) = some .keyIndexRange := if_pos hx
  have hsknp : raisedBy s (.sknp x) = some .keyIndexRange := if_pos hx
  exact ⟨⟨_, exec_of_raisedBy hskp, faultTaken_raise s .keyIndexRange⟩,
    ⟨_, exec_of_raisedBy hsknp, faultTaken_raise s .keyIndexRange⟩⟩

/-- Settles O52: each move writes its one part and advances. -/
theorem timerMovesCopyTheByte : Obligations.TimerMovesCopyTheByte := by
  unfold Obligations.TimerMovesCopyTheByte
  intro s x
  exact ⟨⟨_, rfl, getV_setV_advance s x _, setV_advance_frames s x _⟩,
    ⟨_, rfl, rfl, pcIs_advance _, exec_frame (i := .ldDTVx x) rfl⟩,
    ⟨_, rfl, rfl, pcIs_advance _, exec_frame (i := .ldSTVx x) rfl⟩⟩

/-! ### Waiting for a key (R212, R214) -/

/-- Fx0A with key k the lowest pressed stores k and advances. -/
theorem exec_ldVxK_stores {s : State} {k : Nat} (x : Nibble) (hk : s.firstKey = some k) :
    ∃ t, exec (.ldVxK x) s = .next t ∧ (t.getV x).toNat = k ∧ PcIs t (s.pc.toNat + 2) ∧
      KeepsRegsBut [x] s t ∧ KeepsAllBut [.regs, .pc] s t := by
  refine ⟨_, exec_ldVxK_of_key x hk, ?_, setV_advance_frames s x _⟩
  have hlt := (State.firstKey_eq_some.mp hk).1
  rw [getV_setV_advance, BitVec.toNat_ofNat]
  omega

theorem exec_ldVxK_waits {s : State} (x : Nibble) (h : s.keys = 0#16) :
    exec (.ldVxK x) s = .next s :=
  exec_ldVxK_of_no_key x (s.firstKey_eq_none_iff.mpr h)

/-- Settles O53: the key scan answers the lowest pressed key, or none where the keypad is 0. -/
theorem waitForKeyStoresTheLowestKey : Obligations.WaitForKeyStoresTheLowestKey := by
  unfold Obligations.WaitForKeyStoresTheLowestKey
  intro s x
  exact ⟨fun k hlt hk hlow => exec_ldVxK_stores x (State.firstKey_eq_some.mpr ⟨hlt, hk, hlow⟩),
    exec_ldVxK_waits x⟩

/-- A STEP at Fx0A with no key pressed latches the word and changes nothing else. -/
theorem step_waits {s : State} {x : Nibble} (hrun : s.faultCode = 0#8)
    (hword : s.fetchWord = encode (.ldVxK x)) (hkeys : s.keys = 0#16) :
    step s = .next (s.latch s.fetchWord) := by
  rw [step_of_decodeWord hrun (hword ▸ decodeWord_encode _)]
  exact exec_ldVxK_waits x hkeys

/-- Any number of such STEPs: the latch is all that differs, whatever it held before. -/
theorem runEvents_waits {s : State} {x : Nibble} (hrun : s.faultCode = 0#8)
    (hword : s.fetchWord = encode (.ldVxK x)) (hkeys : s.keys = 0#16) (n : Nat) (w : Word) :
    ∃ w', runEvents (List.replicate n .step) (s.latch w) = .next (s.latch w') := by
  induction n generalizing w with
  | zero => exact ⟨w, rfl⟩
  | succ n ih =>
    obtain ⟨w', hw'⟩ := ih s.fetchWord
    have hstep : applyEvent .step (s.latch w) = .next (s.latch s.fetchWord) :=
      step_waits (s := s.latch w) hrun hword hkeys
    exact ⟨w', by rw [List.replicate_succ, runEvents, hstep]; exact hw'⟩

theorem State.firstKey_of_one_key (s : State) {k : Nat} (hk : k < 16) :
    (s.setKeys (BitVec.twoPow 16 k)).firstKey = some k := by
  refine State.firstKey_eq_some.mpr ⟨hk, ?_, fun j hj => ?_⟩
  · simp [State.key, hk]
  · simp [State.key]
    omega

/-- A STEP at Fx0A with key k the lowest pressed completes it. -/
theorem step_stores_key {s : State} {x : Nibble} {k : Nat} (hrun : s.faultCode = 0#8)
    (hword : s.fetchWord = encode (.ldVxK x)) (hk : s.firstKey = some k) :
    ∃ u, step s = .next u ∧ (u.getV x).toNat = k ∧ PcIs u (s.pc.toNat + 2) := by
  obtain ⟨u, hu, hx, hpc, -, -⟩ := exec_ldVxK_stores (s := s.fetched) x hk
  exact ⟨u, (step_of_decodeWord hrun (hword ▸ decodeWord_encode _)).trans hu, hx, hpc⟩

/-- Settles O54: the waiting steps leave all but the latch, so the word at pc is still Fx0A when the key is
pressed. -/
theorem waitForKeyWaitsAnyNumberOfSteps : Obligations.WaitForKeyWaitsAnyNumberOfSteps := by
  unfold Obligations.WaitForKeyWaitsAnyNumberOfSteps
  intro s x n hrun hword hkeys
  obtain ⟨w, hw⟩ := runEvents_waits hrun hword hkeys n s.opcode
  refine ⟨s.latch w, hw, keeps_latch s w, fun k hk => ?_⟩
  exact step_stores_key (s := (s.latch w).setKeys (BitVec.twoPow 16 k)) hrun hword
    ((s.latch w).firstKey_of_one_key hk)

end Sys2Proof.Machine
end

section
/-! The display (spec 40_display.md R100-R106, 10_state.md R37): the result of 00E0 and Dxyn, and that no
other instruction reaches the framebuffer. With it, that no instruction reads ST (R35). -/

namespace Sys2Proof.Machine

/-! ### Clearing (R100) -/

/-- Settles O24: the blank framebuffer has no pixel on. -/
theorem clearScreenResult : Obligations.ClearScreenResult := by
  unfold Obligations.ClearScreenResult
  intro s
  exact ⟨_, rfl, Framebuffer.pixel_blank, pcIs_advance _, exec_frame (i := .cls) rfl⟩

/-! ### Drawing (R101-R104) -/

/-- The pixels the drawn bits land on are the sprite's. -/
theorem bitsLand_iff_spriteBitLands (s : State) (x y n : Nibble) (X : Fin 64) (Y : Fin 32) :
    BitsLand s.config.spriteEdge (spriteBits (s.spriteX x) (s.spriteY y) (s.bytesAtI n.toNat)) X Y ↔
      SpriteBitLands s x y n X Y := by
  have hbyte : ∀ r, s.readMem (s.addrI r) = s.readMem (s.index.toNat + r) := fun r => s.readMem_mod _
  constructor
  · rintro ⟨b, hb, hbit, hplace⟩
    obtain ⟨r, c, hr, hc, rfl⟩ := mem_spriteBits.mp hb
    rw [s.length_bytesAtI] at hr
    rw [s.getElem_bytesAtI, hbyte] at hbit
    exact ⟨r, c, hr, hc, hbit, place_eq_some.mp hplace⟩
  · rintro ⟨r, c, hr, hc, hbit, hplace⟩
    refine ⟨_, mem_spriteBits.mpr ⟨r, c, by rwa [s.length_bytesAtI], hc, rfl⟩, ?_, place_eq_some.mpr hplace⟩
    rwa [s.getElem_bytesAtI, hbyte]

/-- Everything a draw does: it flips the pixels the sprite lands on and collides where one was on. -/
theorem State.drawn_spec (s : State) (x y n : Nibble) :
    (∀ X Y, (SpriteBitLands s x y n X Y →
        Framebuffer.pixel (s.drawn x y n).1 X Y = !s.pixel X Y) ∧
      (¬ SpriteBitLands s x y n X Y → Framebuffer.pixel (s.drawn x y n).1 X Y = s.pixel X Y)) ∧
    ((s.drawn x y n).2 = true ↔ ∃ X Y, SpriteBitLands s x y n X Y ∧ s.pixel X Y = true) := by
  have hrows : (s.bytesAtI n.toNat).length ≤ 32 := by
    have := n.isLt
    rw [s.length_bytesAtI]
    omega
  have hspec := drawBits_spec s.config.spriteEdge _ (s.fb, false)
    (spriteBits_apart s.config.spriteEdge (s.spriteX x) (s.spriteY y) _ hrows)
  simp only [bitsLand_iff_spriteBitLands, Bool.false_eq_true, false_or] at hspec
  rw [State.drawn, drawRows_eq_drawBits]
  exact hspec

/-- The state after Dxyn. -/
theorem exec_drw_eq (x y n : Nibble) (s : State) :
    exec (.drw x y n) s =
      .next ((s.setFB (s.drawn x y n).1).setV vF (flagByte (s.drawn x y n).2)).advance := rfl

/-- Settles O25: by what a draw does to the pixels and what it reports. -/
theorem drawFlipsTheSpritesPixels : Obligations.DrawFlipsTheSpritesPixels := by
  unfold Obligations.DrawFlipsTheSpritesPixels
  intro s x y n
  obtain ⟨hpixels, hhit⟩ := s.drawn_spec x y n
  exact ⟨_, exec_drw_eq x y n s, hpixels, flagIs_of_getV (getV_setV_advance _ vF _) hhit,
    pcIs_advance _, exec_regs_frame (exec_drw_eq x y n s) fun r => List.mem_singleton.mpr,
    exec_frame (exec_drw_eq x y n s)⟩

/-- A sprite lands alike in two states that agree on its place, its bytes and SPRITE_EDGE. -/
theorem spriteBitLands_congr {s t : State} {x y : Nibble} (n : Nibble) (X : Fin 64) (Y : Fin 32)
    (hx : (t.getV x).toNat % 64 = (s.getV x).toNat % 64)
    (hy : (t.getV y).toNat % 32 = (s.getV y).toNat % 32) (hindex : t.index = s.index)
    (hmem : ∀ a, t.readMem a = s.readMem a) (hconfig : t.config = s.config) :
    SpriteBitLands t x y n X Y ↔ SpriteBitLands s x y n X Y := by
  simp only [SpriteBitLands, hx, hy, hindex, hmem, hconfig]

/-- What Dxyn does to the pixels, as a flip of those the sprite lands on. -/
theorem exec_drw_pixels {s t : State} {x y n : Nibble} (h : exec (.drw x y n) s = .next t)
    (X : Fin 64) (Y : Fin 32) :
    (SpriteBitLands s x y n X Y ∧ t.pixel X Y = !s.pixel X Y) ∨
      (¬ SpriteBitLands s x y n X Y ∧ t.pixel X Y = s.pixel X Y) := by
  cases (exec_drw_eq x y n s).symm.trans h
  obtain ⟨hflip, hkeep⟩ := (s.drawn_spec x y n).1 X Y
  by_cases hl : SpriteBitLands s x y n X Y
  · exact .inl ⟨hl, hflip hl⟩
  · exact .inr ⟨hl, hkeep hl⟩

/-- Settles O26: the second draw flips the same pixels back, and it meets a lit pixel exactly where the first
one lit it. -/
theorem drawTwiceRestoresTheScreen : Obligations.DrawTwiceRestoresTheScreen := by
  unfold Obligations.DrawTwiceRestoresTheScreen
  intro s t x y n h hx hy
  have hframe := exec_frame h
  have hsame : ∀ X Y, SpriteBitLands t x y n X Y ↔ SpriteBitLands s x y n X Y := fun X Y =>
    spriteBitLands_congr n X Y hx hy (hframe .index (by simp [writableParts]))
      (hframe .memory (by simp [writableParts])) (exec_keeps_config h)
  refine ⟨_, exec_drw_eq x y n t, fun X Y => ?_, flagIs_of_getV (getV_setV_advance _ vF _) ?_⟩
  · obtain ⟨hl, ht⟩ | ⟨hl, ht⟩ := exec_drw_pixels h X Y <;>
      obtain ⟨hl', hu⟩ | ⟨hl', hu⟩ := exec_drw_pixels (exec_drw_eq x y n t) X Y
    · rw [hu, ht, Bool.not_not]
    · exact absurd ((hsame X Y).mpr hl) hl'
    · exact absurd ((hsame X Y).mp hl') hl
    · rw [hu, ht]
  · rw [(t.drawn_spec x y n).2]
    refine exists_congr fun X => exists_congr fun Y => and_congr_left fun hlit => ?_
    rw [hsame]
    obtain ⟨hl, ht⟩ | ⟨hl, ht⟩ := exec_drw_pixels h X Y
    · simpa [hl, hlit] using ht
    · simp [hl, ← ht, hlit]

/-! ### A state with another framebuffer and another sound timer

Two states that differ in these two parts alone are told apart by no instruction but 00E0 and Dxyn, and
Fx18 writes ST. -/

/-- The state with the framebuffer `z` and the sound timer `b`. -/
def State.withScreenSound (s : State) (z : Framebuffer) (b : Byte) : State := { s with fb := z, st := b }

@[simp] theorem State.withScreenSound_config (s : State) (z : Framebuffer) (b : Byte) :
    (s.withScreenSound z b).config = s.config := rfl

theorem State.setVs_withScreenSound (s : State) (z : Framebuffer) (b : Byte) (j : Nat) (bs : List Byte) :
    (s.withScreenSound z b).setVs j bs = (s.setVs j bs).withScreenSound z b := by
  induction bs generalizing s j with
  | nil => rfl
  | cons c rest ih => exact ih (s.setV (BitVec.ofNat 4 j) c) (j + 1)

theorem State.writeFlagged_withScreenSound (s : State) (z : Framebuffer) (b : Byte) (x : Nibble)
    (res f : Byte) :
    (s.withScreenSound z b).writeFlagged x res f = (s.writeFlagged x res f).withScreenSound z b := by
  unfold State.writeFlagged
  rw [State.withScreenSound_config]
  cases s.config.flagOrder <;> rfl

theorem State.unknownOpcode_withScreenSound (s : State) (z : Framebuffer) (b : Byte) :
    (s.withScreenSound z b).unknownOpcode = s.unknownOpcode.withScreenSound z b := by
  unfold State.unknownOpcode
  rw [State.withScreenSound_config]
  cases s.config.unknownOpcodePolicy <;> rfl

/-- An instruction other than 00E0, Dxyn and Fx18 does the same whatever the framebuffer and ST hold, and
leaves them. -/
theorem exec_withScreenSound {i : Instr} {s t : State} (z : Framebuffer) (b : Byte) (hcls : i ≠ .cls)
    (hdrw : ¬ ∃ x y n, i = .drw x y n) (hst : ¬ ∃ x, i = .ldSTVx x) (h : exec i s = .next t) :
    exec i (s.withScreenSound z b) = .next (t.withScreenSound z b) := by
  cases i with
  | cls => exact absurd rfl hcls
  | drw x y n => exact absurd ⟨x, y, n, rfl⟩ hdrw
  | ldSTVx x => exact absurd ⟨x, rfl⟩ hst
  | call nnn =>
    obtain ⟨hfull, rfl⟩ | ⟨hfull, hin, rfl⟩ := exec_call_eq_next.mp h
    · exact exec_call_eq_next.mpr (.inl ⟨hfull, rfl⟩)
    · exact exec_call_eq_next.mpr (.inr ⟨hfull, hin, rfl⟩)
  | ret =>
    obtain ⟨hempty, rfl⟩ | ⟨hempty, hin, rfl⟩ := exec_ret_eq_next.mp h
    · exact exec_ret_eq_next.mpr (.inl ⟨hempty, rfl⟩)
    · exact exec_ret_eq_next.mpr (.inr ⟨hempty, hin, rfl⟩)
  | addReg x y | sub x y | shr x y | shl x y =>
    cases h
    exact congrArg (fun u => Host.Outcome.next u.advance) (s.writeFlagged_withScreenSound z b x _ _)
  | subn x y =>
    cases hsub : s.config.hasSubn with
    | false =>
      cases (exec_subn_of_absent x y hsub).symm.trans h
      rw [exec_subn_of_absent x y (s := s.withScreenSound z b) hsub, s.unknownOpcode_withScreenSound]
    | true =>
      cases (exec_subn_of_present x y hsub).symm.trans h
      rw [exec_subn_of_present x y (s := s.withScreenSound z b) hsub, s.writeFlagged_withScreenSound]
      rfl
  | addI x =>
    cases hvf : s.config.addISetsVF with
    | false =>
      cases (exec_addI_without_flag x hvf).symm.trans h
      exact exec_addI_without_flag x (s := s.withScreenSound z b) hvf
    | true =>
      cases (exec_addI_with_flag x hvf).symm.trans h
      exact exec_addI_with_flag x (s := s.withScreenSound z b) hvf
  | ldVxK x =>
    cases hk : s.firstKey with
    | none =>
      cases (exec_ldVxK_of_no_key x hk).symm.trans h
      exact exec_ldVxK_of_no_key x (s := s.withScreenSound z b) hk
    | some k =>
      cases (exec_ldVxK_of_key x hk).symm.trans h
      exact exec_ldVxK_of_key x (s := s.withScreenSound z b) hk
  | skp x =>
    cases (exec_skp_eq x s).symm.trans h
    rw [exec_skp_eq, apply_ite (fun u : State => u.withScreenSound z b)]
    rfl
  | sknp x =>
    cases (exec_sknp_eq x s).symm.trans h
    rw [exec_sknp_eq, apply_ite (fun u : State => u.withScreenSound z b)]
    rfl
  | ldVxMem x =>
    cases h
    exact congrArg (fun u => Host.Outcome.next u.advance) (s.setVs_withScreenSound z b 0 _)
  | jp _ | seImm _ _ | sneImm _ _ | seReg _ _ | ldImm _ _ | addImm _ _ | ldReg _ _ | orReg _ _
  | andReg _ _ | xorReg _ _ | sneReg _ _ | ldI _ | jpV0 _ | rnd _ _ | ldVxDT _ | ldDTVx _ | ldF _
  | ldB _ | ldMemVx _ => cases h; rfl

/-- The framebuffer and ST are kept: the instruction does the same where both are replaced by themselves. -/
theorem exec_keeps_screen_and_sound {i : Instr} {s t : State} (hcls : i ≠ .cls)
    (hdrw : ¬ ∃ x y n, i = .drw x y n) (hst : ¬ ∃ x, i = .ldSTVx x) (h : exec i s = .next t) :
    t.fb = s.fb ∧ t.st = s.st := by
  have hself : exec i s = .next (t.withScreenSound s.fb s.st) :=
    exec_withScreenSound s.fb s.st hcls hdrw hst h
  have ht : t = t.withScreenSound s.fb s.st := Host.Outcome.next.inj (h.symm.trans hself)
  exact ⟨(congrArg State.fb ht :), (congrArg State.st ht :)⟩

/-! ### The sound timer (R35) -/

/-- Settles O20: 00E0 and Dxyn read no timer, Fx18 overwrites ST, and every other instruction does the same
with another ST. -/
theorem noInstructionReadsTheSoundTimer : Obligations.NoInstructionReadsTheSoundTimer := by
  unfold Obligations.NoInstructionReadsTheSoundTimer
  intro i s t z h
  refine ⟨fun ⟨x, hx⟩ => ?_, fun hst => ?_⟩
  · subst hx
    cases h
    rfl
  by_cases hcls : i = .cls
  · subst hcls
    cases h
    rfl
  by_cases hdrw : ∃ x y n, i = .drw x y n
  · obtain ⟨x, y, n, rfl⟩ := hdrw
    cases h
    rfl
  have hfb := (exec_keeps_screen_and_sound hcls hdrw hst h).1
  calc exec i (s.setST z)
      = .next (t.withScreenSound s.fb z) := exec_withScreenSound s.fb z hcls hdrw hst h
    _ = .next (t.setST z) := by rw [← hfb]; rfl

/-! ### The framebuffer (R37) -/

/-- Dxyn XORs in bits that do not depend on the framebuffer: the sprite's. -/
theorem exec_drw_setFB {s t : State} {x y n : Nibble} (z : Framebuffer)
    (h : exec (.drw x y n) s = .next t) :
    ∃ u, exec (.drw x y n) (s.setFB z) = .next u ∧
      ∀ px py, u.pixel px py = ((s.setFB z).pixel px py ^^ (t.pixel px py ^^ s.pixel px py)) := by
  refine ⟨_, exec_drw_eq x y n (s.setFB z), fun X Y => ?_⟩
  have hsame : SpriteBitLands (s.setFB z) x y n X Y ↔ SpriteBitLands s x y n X Y := .rfl
  obtain ⟨hl, ht⟩ | ⟨hl, ht⟩ := exec_drw_pixels h X Y <;>
    obtain ⟨hl', hu⟩ | ⟨hl', hu⟩ := exec_drw_pixels (exec_drw_eq x y n (s.setFB z)) X Y
  · rw [hu, ht]
    simp
  · exact absurd (hsame.mpr hl) hl'
  · exact absurd (hsame.mp hl') hl
  · rw [hu, ht]
    simp

/-- An instruction other than 00E0 and Dxyn does the same whatever the framebuffer holds, and leaves it. -/
theorem exec_setFB {i : Instr} {s t : State} (z : Framebuffer) (hcls : i ≠ .cls)
    (hdrw : ¬ ∃ x y n, i = .drw x y n) (h : exec i s = .next t) :
    t.fb = s.fb ∧ exec i (s.setFB z) = .next (t.setFB z) := by
  by_cases hst : ∃ x, i = .ldSTVx x
  · obtain ⟨x, rfl⟩ := hst
    cases h
    exact ⟨rfl, rfl⟩
  obtain ⟨hfb, hsound⟩ := exec_keeps_screen_and_sound hcls hdrw hst h
  refine ⟨hfb, ?_⟩
  calc exec i (s.setFB z)
      = .next (t.withScreenSound z s.st) := exec_withScreenSound z s.st hcls hdrw hst h
    _ = .next (t.setFB z) := by rw [← hsound]; rfl

theorem State.load_fb (s : State) (image : List Byte) : (s.load image).fb = s.fb := by
  unfold State.load
  split <;> rfl

/-- Settles O22: the instructions by the three kinds, the events one by one. -/
theorem onlyClearAndDrawReachTheScreen : Obligations.OnlyClearAndDrawReachTheScreen := by
  unfold Obligations.OnlyClearAndDrawReachTheScreen
  refine ⟨fun i s t z h => ?_, fun e s t hstep h => ?_⟩
  · by_cases hcls : i = .cls
    · subst hcls
      cases h
      exact .inl ⟨rfl, Framebuffer.pixel_blank, rfl⟩
    by_cases hdrw : ∃ x y n, i = .drw x y n
    · obtain ⟨x, y, n, rfl⟩ := hdrw
      exact .inr (.inl ⟨⟨x, y, n, rfl⟩, exec_drw_setFB z h⟩)
    exact .inr (.inr ⟨hcls, hdrw, exec_setFB z hcls hdrw h⟩)
  · cases e with
    | step => exact absurd rfl hstep
    | reset => cases h; exact .inl ⟨rfl, s.pixel_resetEvent⟩
    | tick => cases h; exact .inr ⟨by simp, rfl⟩
    | keys k => cases h; exact .inr ⟨by simp, rfl⟩
    | load image => cases h; exact .inr ⟨by simp, s.load_fb image⟩

end Sys2Proof.Machine
end

section
/-! The host's events (spec 60_exceptions.md R320, R325, 70_reset_and_hazards.md R400-R404): TICK, KEYS, LOAD
and RESET. -/

namespace Sys2Proof.Machine

/-! ### TICK and KEYS (R320, R325) -/

/-- Settles O55: each timer counts down by itself. -/
theorem tickLowersBothTimers : Obligations.TickLowersBothTimers := by
  unfold Obligations.TickLowersBothTimers
  intro s
  exact ⟨s.tick, rfl, toNat_countDown s.dt, toNat_countDown s.st, keeps_tick s⟩

/-- Settles O56: the keypad is the event's bits. -/
theorem keysEventReplacesTheKeypad : Obligations.KeysEventReplacesTheKeypad := by
  unfold Obligations.KeysEventReplacesTheKeypad
  intro s k
  exact ⟨s.setKeys k, rfl, fun _ _ => rfl, keeps_setKeys s k⟩

/-! ### LOAD (R403, R404) -/

theorem State.load_of_fits (s : State) {image : List Byte} (h : image.length ≤ progMax) :
    s.load image = s.writeMemBytes progBase image :=
  if_pos h

theorem State.load_of_too_large (s : State) {image : List Byte} (h : progMax < image.length) :
    s.load image = s :=
  if_neg (Nat.not_le.mpr h)

/-- Settles O57: an image that fits ends at 0xFFF at most, so none of its addresses wraps. -/
theorem loadPlacesTheImage : Obligations.LoadPlacesTheImage := by
  unfold Obligations.LoadPlacesTheImage
  intro s image
  refine ⟨fun hfit => ⟨s.writeMemBytes progBase image, ?_, fun k hk => ?_, fun a ha hout => ?_, ?_⟩,
    fun hlarge => ?_⟩
  · exact congrArg Host.Outcome.next (s.load_of_fits hfit)
  · exact s.readMem_writeMemBytes_at progBase k image hk (hfit.trans (by decide))
  · refine s.readMem_writeMemBytes_ne progBase a image fun k hk => ?_
    unfold progBase memSize
    omega
  · exact keeps_writeMemBytes s progBase image
  · exact congrArg Host.Outcome.next (s.load_of_too_large hlarge)

/-! ### RESET (R400, R401) -/

theorem State.readMem_resetEvent (s : State) (a : Nat) :
    s.resetEvent.readMem a = Memory.readByte (Memory.writeBytes [] 0 s.config.font.toList) a := rfl

/-- The font's bytes stand at 0x000-0x04F. -/
theorem State.readMem_resetEvent_font (s : State) (k : Fin fontLen) :
    s.resetEvent.readMem k.val = s.config.font.get k := by
  have h := Memory.readByte_writeBytes_at [] 0 k.val s.config.font.toList (by simp) (by simp [fontLen, memSize])
  rw [Nat.zero_add] at h
  rw [State.readMem_resetEvent, h]
  simp [Vector.get_eq_getElem]

/-- The rest of memory is 0: the font reaches none of it, and unlisted bytes past the default font are 0. -/
theorem State.readMem_resetEvent_zero (s : State) {a : Nat} (ha : fontLen ≤ a) (hlt : a < memSize) :
    s.resetEvent.readMem a = 0#8 := by
  rw [State.readMem_resetEvent, Memory.readByte_writeBytes_ne, Memory.readByte_nil,
    Nat.mod_eq_of_lt hlt, unlistedByte]
  · exact List.getD_eq_default _ _ (by simpa using ha)
  · intro k hk
    rw [Vector.length_toList] at hk
    unfold fontLen memSize at *
    omega

/-- Settles O59: the status fields by computation, memory by its two parts. -/
theorem resetClearsTheStatusAndFillsMemory : Obligations.ResetClearsTheStatusAndFillsMemory := by
  unfold Obligations.ResetClearsTheStatusAndFillsMemory
  intro s
  refine ⟨s.resetEvent, rfl, rfl, rfl, rfl, rfl, rfl, rfl, rfl, fun k => BitVec.getLsbD_zero,
    s.readMem_resetEvent_font, fun a ha hlt => s.readMem_resetEvent_zero ha hlt, ?_⟩
  intro p hp
  cases p with
  | config => rfl
  | random => exact ⟨rfl, rfl⟩
  | _ => exact absurd (by simp) hp

end Sys2Proof.Machine
end
